-- ==== Sys2Proof/Word.lean ====
section
/-! DEFINITION. Word.lean: the block's value types (R6, R7). Every value is unsigned; a frame is a finite list of bytes,
byte 0 first on the wire. -/

namespace Sys2Proof

/-- `u8` (R6): one byte of a frame. -/
abbrev Byte := BitVec 8

/-- `u16` (R6): one data word. -/
abbrev Word := BitVec 16

/-- A frame (R7): the bytes of one bus access, first on the wire first. -/
abbrev Frame := List Byte

end Sys2Proof
end

