-- ==== Sys2Proof/Params.lean ====
section
/-! DEFINITION. Params.lean: the parameters of R5 that shape the state: the type of error payloads, the type of transport
handles, and the number of engines on the bus. None has a body that fixes it. The parameters that are values stand in
Config.lean. -/

namespace Sys2Proof

namespace Config

/-- Which tokens are values of `TErr`, besides token 0 (R5, D27). -/
opaque isPayload : Nat → Bool

/-- Which tokens are values of `H`, besides token 0 (R5, D27). -/
opaque isHandle : Nat → Bool

/-- How many engines share the bus with the first one: `P_N_ENGINES` − 1 (R5, D24). -/
opaque furtherEngines : Nat

/-- `P_N_ENGINES` (R5, D24): any number from 1 up. -/
def nEngines : Nat := furtherEngines + 1

end Config

/-- `TErr` (R5, R102, D27): the transport's error payload, an open type. Its values are the tokens an open predicate picks,
so it may be any type that has a value and whose values can be numbered: finite or infinite, of any size (log entry 3). -/
structure TErr where
  token : Nat
  legal : token = 0 ∨ Config.isPayload token = true
  deriving DecidableEq, Repr

/-- `H` (R5, R17, D27): a transport handle, an open type in the same way (log entry 3). -/
structure Handle where
  token : Nat
  legal : token = 0 ∨ Config.isHandle token = true
  deriving DecidableEq, Repr

/-- The one payload that every choice of `TErr` has. -/
def TErr.zero : TErr := ⟨0, Or.inl rfl⟩

/-- The one handle that every choice of `H` has. -/
def Handle.zero : Handle := ⟨0, Or.inl rfl⟩

end Sys2Proof
end

