-- ==== Sys2Proof/Syntax.lean ====
section
/-! DEFINITION. Syntax.lean: the requests of the block (R44, R45), one constructor of `Instr` for each row of the opcode
table, the eleven bus operations (R46), and a request as the request port carries it. -/

namespace Sys2Proof

/-- The humidity operand (R45, R96, D9): an exact rational, or one of the values of a binary float that have no rational
value. A finite float passes as its exact value, and minus zero as 0 (R96). -/
inductive Humidity where
  | exact (q : Rat)
  | nan
  | posInf
  | negInf
  deriving DecidableEq, Repr, Inhabited

/-- A request (R44, R45): one constructor for each value of OPSEL, with that request's operands. -/
inductive Instr where
  /-- 0x0 (R79): initialize measurement mode. -/
  | init
  /-- 0x1 (R80): measure air quality. -/
  | measure
  /-- 0x2 (R81): get calibration baseline. -/
  | getbase
  /-- 0x3 (R82): set calibration baseline; `a` is sent first. -/
  | setbase (a b : Word)
  /-- 0x4 (R83): get secondary baseline. -/
  | getbase2
  /-- 0x5 (R84): set secondary baseline. -/
  | setbase2 (w : Word)
  /-- 0x6 (R85): measure raw signal. -/
  | measraw
  /-- 0x7 (R86): self-test. -/
  | selftest
  /-- 0x8 (R87): set humidity compensation. -/
  | sethum (h : Humidity)
  /-- 0x9 (R88): get feature set. -/
  | getfeat
  /-- 0xA (R89): get serial identifier. -/
  | getserial
  /-- 0xB (R100): the checksum of a byte list of any length. -/
  | crc8 (data : List Byte)
  /-- 0xC (R101): the 8.8 fixed-point encoding of a value. -/
  | fpenc (h : Humidity)
  /-- 0xD (R55, D5): the reserved selector. -/
  | reserved
  /-- 0xE (R76): take ownership of a transport handle. -/
  | attach (hd : Handle)
  /-- 0xF (R77): give the handle back. -/
  | release
  deriving DecidableEq, Repr, Inhabited

/-- The eleven bus operations, the rows of R46. -/
inductive BusOp where
  | init | measure | getbase | setbase | getbase2 | setbase2 | measraw | selftest | sethum | getfeat | getserial
  deriving DecidableEq, Repr, Inhabited

/-- One operand field of a request (R45). -/
inductive Field where
  | word (w : Word)
  | humidity (h : Humidity)
  | bytes (data : List Byte)
  | handle (hd : Handle)
  deriving DecidableEq, Repr, Inhabited

/-- A request as the request port carries it (R44): the 4-bit selector and then its operand fields, in R45's order. -/
structure Request where
  opsel : BitVec 4
  fields : List Field
  deriving DecidableEq, Repr, Inhabited

end Sys2Proof
end

