-- ==== Sys2Proof/Machine/Ports.lean ====
section
/-! DEFINITION. Ports.lean: what the four ports carry besides requests (R59): the answers of the transport and of the
timer, the events of the trace (R20), and the responses (R54, R102). -/

namespace Sys2Proof

namespace Machine

/-- What a bus write answers (R65). -/
inductive WriteOutcome where
  | wOk
  | wErr (e : TErr)
  deriving DecidableEq, Repr, Inhabited

/-- What a bus read answers (R66). -/
inductive ReadOutcome where
  | rOk (bytes : Frame)
  | rErr (e : TErr)
  deriving DecidableEq, Repr, Inhabited

/-- A call on the transport or timer port is answered, or never answered (R69). -/
inductive Reply (α : Type) where
  | answer (a : α)
  | silent
  deriving DecidableEq, Repr, Inhabited

/-- A settle delay: milliseconds, or microseconds (R46, R67). -/
inductive Delay where
  | ms (n : Nat)
  | us (n : Nat)
  deriving DecidableEq, Repr, Inhabited

/-- One entry of the trace (R20). -/
inductive Event where
  | evWrite (addr : BitVec 7) (bytes : Frame) (outcome : WriteOutcome)
  | evDelayMs (n : Nat)
  | evDelayUs (n : Nat)
  | evRead (addr : BitVec 7) (n : Nat) (outcome : ReadOutcome)
  deriving DecidableEq, Repr, Inhabited

/-- The three error kinds (R102). -/
inductive ErrKind where
  | transport (e : TErr)
  | checksumMismatch
  | fixedPointRange
  deriving DecidableEq, Repr, Inhabited

/-- The value types of R54. -/
inductive Value where
  /-- INIT, SETBASE, SETBASE2, SETHUM, ATTACH. -/
  | unit
  /-- MEASURE. -/
  | air (co2eq tvoc : Word)
  /-- GETBASE. -/
  | baseline (base0 base1 : Word)
  /-- GETBASE2, MEASRAW, FPENC. -/
  | word (w : Word)
  /-- SELFTEST. -/
  | flag (b : Bool)
  /-- GETFEAT. -/
  | feature (ptype : BitVec 4) (pver : Byte)
  /-- GETSERIAL. -/
  | serial (v : BitVec 64)
  /-- CRC8. -/
  | byte (b : Byte)
  /-- RELEASE. -/
  | handle (hd : Handle)
  deriving DecidableEq, Repr, Inhabited

/-- One response on the response port (R54, R102). -/
inductive Response where
  | ok (v : Value)
  | err (k : ErrKind)
  deriving DecidableEq, Repr, Inhabited

end Machine
end Sys2Proof
end

