-- ==== Sys2Proof/Machine/Flags.lean ====
section
/-! DEFINITION. Flags.lean: the block has no flags and no condition codes (R21). Its only status is the result code of each
response (R102), which is not kept. -/

namespace Sys2Proof.Machine

/-- The numeric code of an error kind (R102, D8). -/
def ErrKind.code : ErrKind → Nat
  | .transport _ => 1
  | .checksumMismatch => 2
  | .fixedPointRange => 3

/-- The result code every response carries (R102, D8). -/
def Response.code : Response → Nat
  | .ok _ => 0
  | .err k => k.code

end Sys2Proof.Machine
end

