-- ==== Sys2Proof/Config.lean ====
section
/-! DEFINITION. Config.lean: the open values among the parameters of R5 and the free values of R68. None has a body, so no proof can rest
on a value of one. -/

namespace Sys2Proof.Config

open Machine

/-- `P_ADDR` (R5, R37, D6): the sensor's 7-bit bus address, the same for every access. The spec's default is general
knowledge and is not used. -/
opaque pAddr : BitVec 7

/-- `P_CMD_INIT` … `P_CMD_GETSERIAL` (R46, R47, D7): the command bytes `(c0, c1)` of each operation. The spec requires
nothing of them, not even that they differ. -/
opaque pCmd : BusOp → Byte × Byte

/-- The oracle's answer to a bus write through a handle (R68), where the script in State holds none. The number is State's
counter of draws (log entry 1). -/
opaque freeWrite : Handle → Nat → Reply WriteOutcome

/-- The oracle's answer to a bus read through a handle (R68), where the script in State holds none (log entry 1). -/
opaque freeRead : Handle → Nat → Reply ReadOutcome

/-- Whether the timer completes a delay (R67, R69), where the script in State holds no answer (log entry 1). -/
opaque freeDelay : Nat → Reply Unit

/-- The byte a read delivers at a position its answer does not list (R33, R68): draw and position (log entry 1). -/
opaque freeByte : Nat → Nat → Byte

end Sys2Proof.Config
end

