-- ==== Sys2Proof/Machine/Operands.lean ====
section
/-! DEFINITION. Operands.lean: the attributes of the bus operations (R46), the checksum and codec unit (R90 to R99), the
wire formats (R47 to R53), and the encoding and decoding of frames (R64, R79 to R89). Pure functions. -/

namespace Sys2Proof.Machine

/-! ### Words (R8, R28, R94) -/

/-- Big-endian assembly (R8, R94): `hi * 256 + lo`, that is `hi` in bits 15:8 and `lo` in bits 7:0. -/
def w16 (hi lo : Byte) : Word := hi ++ lo

/-- Bits 15:8 (R8). -/
def hi8 (w : Word) : Byte := w.extractLsb' 8 8

/-- Bits 7:0 (R8). -/
def lo8 (w : Word) : Byte := w.extractLsb' 0 8

/-- The two bytes of a word, high byte first (R8, R28). -/
def be (w : Word) : Frame := [hi8 w, lo8 w]

/-! ### Checksum (R90) -/

/-- `CRC_POLY` (R5). -/
def crcPoly : Byte := 0x31#8

/-- `CRC_INIT` (R5). -/
def crcInit : Byte := 0xFF#8

/-- One of the eight shifts of R90: most significant bit first, no reflection. -/
def crcShift (c : Byte) : Byte :=
  if c.getLsbD 7 then (c <<< 1) ^^^ crcPoly else c <<< 1

/-- `n` shifts. -/
def crcShifts : Nat → Byte → Byte
  | 0, c => c
  | n + 1, c => crcShifts n (crcShift c)

/-- One byte of data into the checksum (R90). -/
def crcByte (c b : Byte) : Byte := crcShifts 8 (c ^^^ b)

/-- The checksum of a byte list of any length (R90, C4). -/
def crc8 (data : List Byte) : Byte := data.foldl crcByte crcInit

/-! ### Triplets and frames (R48, R92, R93, R94) -/

/-- A checksum-protected word on the wire (R48). -/
def triplet (w : Word) : Frame := be w ++ [crc8 (be w)]

/-- Every triplet passes its own check (R92, R93). A list that is not a whole number of triplets is no frame. -/
def frameValid : Frame → Bool
  | [] => true
  | d0 :: d1 :: c :: rest => crc8 [d0, d1] == c && frameValid rest
  | _ => false

/-- The data words of a frame in frame order (R50, R94). -/
def frameWords : Frame → List Word
  | d0 :: d1 :: _ :: rest => w16 d0 d1 :: frameWords rest
  | _ => []

/-! ### The 8.8 fixed-point encoder (R96 to R99) -/

/-- `floor(h)` of a rational. -/
def ratFloor (q : Rat) : Int := q.num / (q.den : Int)

/-- `floor((h − ip) * 256)` for an integer `ip`, in exact integer arithmetic on numerator and denominator. -/
def ratFraction (q : Rat) (ip : Int) : Int := (q.num - ip * (q.den : Int)) * 256 / (q.den : Int)

/-- The fixed-point encoder (R97): negative values first (D10), then the integer part, then the truncated fraction (R98);
values without a rational value are out of range (R96). The last check is never taken (R99). -/
def fpenc (h : Humidity) : Except ErrKind Word :=
  match h with
  | .exact q =>
    if q.num < 0 then .error .fixedPointRange
    else if 255 < ratFloor q then .error .fixedPointRange
    else if 255 < ratFraction q (ratFloor q) then .error .fixedPointRange
    else .ok (BitVec.ofInt 16 (ratFloor q * 256 + ratFraction q (ratFloor q)))
  | .nan => .error .fixedPointRange
  | .posInf => .error .fixedPointRange
  | .negInf => .error .fixedPointRange

/-! ### Attributes of the bus operations (R34, R46, R127) -/

/-- The bus operation of a request; none for the bus-free requests (R44). -/
def busOp? : Instr → Option BusOp
  | .init => some .init
  | .measure => some .measure
  | .getbase => some .getbase
  | .setbase _ _ => some .setbase
  | .getbase2 => some .getbase2
  | .setbase2 _ => some .setbase2
  | .measraw => some .measraw
  | .selftest => some .selftest
  | .sethum _ => some .sethum
  | .getfeat => some .getfeat
  | .getserial => some .getserial
  | .crc8 _ => none
  | .fpenc _ => none
  | .reserved => none
  | .attach _ => none
  | .release => none

/-- `TXLEN` (R46). -/
def txLen : BusOp → Nat
  | .init | .measure | .getbase | .getbase2 | .measraw | .selftest | .getfeat | .getserial => 2
  | .setbase2 | .sethum => 5
  | .setbase => 8

/-- `RXLEN` (R46). -/
def rxLen : BusOp → Nat
  | .init | .setbase | .setbase2 | .sethum => 0
  | .getbase2 | .measraw | .selftest | .getfeat => 3
  | .measure | .getbase => 6
  | .getserial => 9

/-- `SETTLE` (R46, R127). -/
def settleDelay : BusOp → Delay
  | .measure => .ms 12
  | .measraw => .ms 25
  | .selftest => .ms 220
  | .getserial => .us 500
  | .init | .getbase | .setbase | .getbase2 | .setbase2 | .sethum | .getfeat => .ms 10

/-- The event of a delay (R20, R67). -/
def delayEvent : Delay → Event
  | .ms n => .evDelayMs n
  | .us n => .evDelayUs n

/-! ### Write frames (R47, R49, R64) -/

/-- The command bytes of an operation, `c0` first (R29, R47). -/
def cmd (op : BusOp) : Frame := [(Config.pCmd op).1, (Config.pCmd op).2]

/-- The write frame of an operation (R64). -/
def encodeTx (op : BusOp) (r : Instr) : Except ErrKind Frame :=
  match r with
  | .setbase a b => .ok (cmd op ++ triplet a ++ triplet b)
  | .setbase2 w => .ok (cmd op ++ triplet w)
  | .sethum h =>
    match fpenc h with
    | .error k => .error k
    | .ok q => .ok (cmd op ++ triplet q)
  | _ => .ok (cmd op)

/-! ### Response frames (R50, R52, R53, R79 to R89). Each answers none on a frame of another length than its own. -/

/-- MEASURE (R80): first word CO₂-equivalent, second TVOC. -/
def decodeMeasure (rx : Frame) : Option Value :=
  match frameWords rx with
  | [v0, v1] => some (.air v0 v1)
  | _ => none

/-- GETBASE (R81): the words in frame order. -/
def decodeGetbase (rx : Frame) : Option Value :=
  match frameWords rx with
  | [v0, v1] => some (.baseline v0 v1)
  | _ => none

/-- GETBASE2 (R83): the word unchanged. -/
def decodeGetbase2 (rx : Frame) : Option Value :=
  match frameWords rx with
  | [v0] => some (.word v0)
  | _ => none

/-- MEASRAW (R85): the word unchanged. -/
def decodeMeasraw (rx : Frame) : Option Value :=
  match frameWords rx with
  | [v0] => some (.word v0)
  | _ => none

/-- `P_SELFTEST_PATTERN` (R5). -/
def selftestPattern : Word := 0xD400#16

/-- SELFTEST (R86): whether the whole word is the pattern. -/
def decodeSelftest (rx : Frame) : Option Value :=
  match frameWords rx with
  | [v0] => some (.flag (v0 == selftestPattern))
  | _ => none

/-- GETFEAT (R52, R88): the high nibble of byte 0 and byte 1. -/
def decodeGetfeat (rx : Frame) : Option Value :=
  match rx with
  | [d0, d1, _] => some (.feature (d0.extractLsb' 4 4) d1)
  | _ => none

/-- GETSERIAL (R53, R89): three words, highest first, below sixteen zero bits. -/
def decodeGetserial (rx : Frame) : Option Value :=
  match frameWords rx with
  | [v0, v1, v2] =>
    some (.serial (0#16 ++ v0 ++ v1 ++ v2))
  | _ => none

end Sys2Proof.Machine
end

