-- ==== Sys2Proof/WellFormed.lean ====
section
/-! DEFINITION. WellFormed.lean: when a request at the port is one the spec describes: its operand fields are exactly those
R45 lists for its selector, each of its type. The operands of an `Instr` are typed by its constructor, so every `Instr` is
well formed as a term; what can be ill formed is the request at the port. -/

namespace Sys2Proof

/-- The operand fields of R45 for each selector: every request not listed has no operand. -/
def Request.wellFormed (r : Request) : Bool :=
  match r.opsel.toNat with
  | 0x3 => match r.fields with | [.word _, .word _] => true | _ => false
  | 0x5 => match r.fields with | [.word _] => true | _ => false
  | 0x8 => match r.fields with | [.humidity _] => true | _ => false
  | 0xB => match r.fields with | [.bytes _] => true | _ => false
  | 0xC => match r.fields with | [.humidity _] => true | _ => false
  | 0xE => match r.fields with | [.handle _] => true | _ => false
  | _ => r.fields.isEmpty

end Sys2Proof
end

