-- ==== Sys2Proof/Decode.lean ====
section
/-! DEFINITION. Decode.lean: from a request at the port to the request it is (R44, R45, R61), the encoder back, and the
opcode table's words. The decoder is total: every selector value is one of the fifteen requests or the reserved value, and
operand fields other than R45's are refused by name. -/

namespace Sys2Proof

/-- Why a request at the port is not one of R44's. -/
inductive DecodeError where
  /-- The operand fields are not those R45 lists for the selector. Safe: such a request has no meaning in the spec. -/
  | operandFields (opsel : BitVec 4)
  deriving DecidableEq, Repr, Inhabited

/-- A request without operands (R45). -/
def decodeNoOperand (r : Request) (i : Instr) : Except DecodeError Instr :=
  match r.fields with
  | [] => .ok i
  | _ => .error (.operandFields r.opsel)

/-- A request whose one operand is a word (R45). -/
def decodeWord (r : Request) (i : Word → Instr) : Except DecodeError Instr :=
  match r.fields with
  | [.word w] => .ok (i w)
  | _ => .error (.operandFields r.opsel)

/-- A request whose operands are two words (R45). -/
def decodeTwoWords (r : Request) (i : Word → Word → Instr) : Except DecodeError Instr :=
  match r.fields with
  | [.word a, .word b] => .ok (i a b)
  | _ => .error (.operandFields r.opsel)

/-- A request whose operand is a humidity value (R45). -/
def decodeHumidity (r : Request) (i : Humidity → Instr) : Except DecodeError Instr :=
  match r.fields with
  | [.humidity h] => .ok (i h)
  | _ => .error (.operandFields r.opsel)

/-- A request whose operand is a byte list (R45). -/
def decodeBytes (r : Request) (i : List Byte → Instr) : Except DecodeError Instr :=
  match r.fields with
  | [.bytes data] => .ok (i data)
  | _ => .error (.operandFields r.opsel)

/-- A request whose operand is a transport handle (R45). -/
def decodeHandle (r : Request) (i : Handle → Instr) : Except DecodeError Instr :=
  match r.fields with
  | [.handle hd] => .ok (i hd)
  | _ => .error (.operandFields r.opsel)

/-- The request a selector and its operand fields stand for (R44, R45). A 4-bit selector has no value past 0xF. -/
def decode (r : Request) : Except DecodeError Instr :=
  match r.opsel.toNat with
  | 0x0 => decodeNoOperand r .init
  | 0x1 => decodeNoOperand r .measure
  | 0x2 => decodeNoOperand r .getbase
  | 0x3 => decodeTwoWords r .setbase
  | 0x4 => decodeNoOperand r .getbase2
  | 0x5 => decodeWord r .setbase2
  | 0x6 => decodeNoOperand r .measraw
  | 0x7 => decodeNoOperand r .selftest
  | 0x8 => decodeHumidity r .sethum
  | 0x9 => decodeNoOperand r .getfeat
  | 0xA => decodeNoOperand r .getserial
  | 0xB => decodeBytes r .crc8
  | 0xC => decodeHumidity r .fpenc
  | 0xD => decodeNoOperand r .reserved
  | 0xE => decodeHandle r .attach
  | 0xF => decodeNoOperand r .release
  | _ => .error (.operandFields r.opsel)

/-- The selector and operand fields of a request (R44, R45). -/
def encode : Instr → Request
  | .init => ⟨0x0, []⟩
  | .measure => ⟨0x1, []⟩
  | .getbase => ⟨0x2, []⟩
  | .setbase a b => ⟨0x3, [.word a, .word b]⟩
  | .getbase2 => ⟨0x4, []⟩
  | .setbase2 w => ⟨0x5, [.word w]⟩
  | .measraw => ⟨0x6, []⟩
  | .selftest => ⟨0x7, []⟩
  | .sethum h => ⟨0x8, [.humidity h]⟩
  | .getfeat => ⟨0x9, []⟩
  | .getserial => ⟨0xA, []⟩
  | .crc8 data => ⟨0xB, [.bytes data]⟩
  | .fpenc h => ⟨0xC, [.humidity h]⟩
  | .reserved => ⟨0xD, []⟩
  | .attach hd => ⟨0xE, [.handle hd]⟩
  | .release => ⟨0xF, []⟩

/-- The operand fields of R45 for a selector, every operand zero: the zero word, the rational 0, the empty byte list, the
handle of token 0. -/
def zeroFields (opsel : BitVec 4) : List Field :=
  match opsel.toNat with
  | 0x3 => [.word 0, .word 0]
  | 0x5 => [.word 0]
  | 0x8 => [.humidity (.exact 0)]
  | 0xB => [.bytes []]
  | 0xC => [.humidity (.exact 0)]
  | 0xE => [.handle Handle.zero]
  | _ => []

/-- The request an opcode-table word stands for: the selector is bits 3:0 and the operands are zero. A word that does not
fit the 4-bit selector, or is given fewer bits than the selector has, is no request (log entry 9). -/
def tableRequest (nbits w : Nat) : Option Request :=
  if 4 ≤ nbits ∧ w < 16 then some ⟨BitVec.ofNat 4 w, zeroFields (BitVec.ofNat 4 w)⟩ else none

/-- What the decoder reads from an opcode-table word. -/
def decodeTableWord (nbits w : Nat) : Option Instr :=
  match tableRequest nbits w with
  | none => none
  | some r => (decode r).toOption

end Sys2Proof
end

