-- ==== Sys2Proof/Machine/State.lean ====
section
/-! DEFINITION. State.lean: the state of the block (R16 to R20, R27), its ports (R59), and the machine after reset (R26,
R116, R117). Plain data. -/

namespace Sys2Proof.Machine

/-- The sequencer phase (R16). -/
inductive Phase where
  /-- No operation in progress. -/
  | idle
  /-- Building the write frame. -/
  | enc
  /-- The bus write is outstanding. -/
  | wr
  /-- The settle delay is outstanding. -/
  | settle
  /-- The bus read is outstanding. -/
  | rd
  /-- Validating the triplets of RX. -/
  | chk
  /-- Decoding RX. -/
  | dec
  deriving DecidableEq, Repr, Inhabited

/-- The attachment state (R17). -/
inductive Att where
  | detached
  | attached (hd : Handle)
  deriving DecidableEq, Repr, Inhabited

/-- Why the spec refuses a request (R108). A refusal is a next state with the mark set, never a stop. -/
inductive Reason where
  | reservedSelector
  | notAttached
  | alreadyAttached
  | sharedBusOverlap
  deriving DecidableEq, Repr, Inhabited

/-- The registers that hold no value at some times (R16, R18). -/
inductive Reg where
  | op | tx | rx
  deriving DecidableEq, Repr, Inhabited

/-- The calls that may never be answered (R69). -/
inductive Call where
  | busWrite | delay | busRead
  deriving DecidableEq, Repr, Inhabited

/-- Why the machine stops. -/
inductive Fault where
  /-- Raised in WR, SETTLE and RD when the call is never answered: the engine has no step (R69, I3). Safe. -/
  | unanswered (c : Call)
  /-- Raised when a register is read in a phase in which it holds no value (R18). No well-formed state raises it. Safe. -/
  | noValue (r : Reg)
  /-- Raised in a phase the operation never enters (R62: an operation without a read is never in RD, CHK or DEC). No
  well-formed state raises it. Safe. -/
  | wrongPhase (p : Phase)
  /-- Raised by a bus call while detached (R59: the transport port is usable only while attached). No well-formed state
  raises it. Safe. -/
  | transportDetached
  /-- Raised in DEC on a frame of another length than the operation's (R18). No well-formed state raises it. Safe. -/
  | frameLength
  deriving DecidableEq, Repr, Inhabited

/-- Why a request is given no step. -/
inductive Refusal where
  /-- Raised by `exec` for an instruction without a meaning in the model (no arm raises it). Safe. -/
  | notModelled (mnemonic : String)
  /-- Raised when a request is presented while another operation is in progress: the port offers no step for it (R60,
  D3). `step` never presents one. Safe. -/
  | portBusy
  /-- Raised by `step` when the operand fields at the port are not those of R45. Safe. -/
  | operandFields (e : DecodeError)
  deriving DecidableEq, Repr, Inhabited

/-- One engine instance with its ports (R16 to R20, R27, R59). -/
structure Engine where
  /-- Attachment (R17): written by ATTACH and RELEASE only. -/
  att : Att := .detached
  /-- Sequencer phase (R16). -/
  phase : Phase := .idle
  /-- The request in progress (R16); no value in IDLE. -/
  op : Option Instr := none
  /-- The write frame TX (R18); no value in IDLE. -/
  tx : Option Frame := none
  /-- The response frame RX (R18); no value in IDLE. -/
  rx : Option Frame := none
  /-- The sticky refusal mark (R19). -/
  refused : Bool := false
  /-- The reasons of the refusals so far, oldest first (the model's own; log entry 8). -/
  reasons : List Reason := []
  /-- The event trace (R20), oldest first. -/
  trace : List Event := []
  /-- Requests waiting at the request port, next first (the caller's; log entry 6). -/
  reqs : List Request := []
  /-- Responses given on the response port, oldest first (log entry 7). -/
  resps : List Response := []
  /-- Answers of the transport to the coming writes (R65, R68; log entry 2). -/
  writes : List (Reply WriteOutcome) := []
  /-- Answers of the timer to the coming delays (R67; log entry 2). -/
  delays : List (Reply Unit) := []
  /-- Answers of the transport to the coming reads (R66, R68; log entry 2). -/
  reads : List (Reply ReadOutcome) := []
  deriving DecidableEq, Repr, Inhabited

/-- The machine: every engine instance on one bus (R27, R113). -/
structure State where
  /-- The engine that moves. -/
  eng : Engine := {}
  /-- The other engines on the same bus (R27, R113; log entry 4). -/
  others : List Engine := []
  /-- Which engine moves in each coming step: 0 is the one that moves now, k + 1 the k-th of `others` (log entry 5). -/
  turns : List Nat := []
  /-- How many answers have been drawn: the argument of the free values (the model's own; log entry 1). -/
  draws : Nat := 0
  deriving DecidableEq, Repr, Inhabited

/-- The machine right after reset with `n` further engines on the bus (R26, R113, R116, R117): every engine detached and
idle, nothing refused, no event, no response. -/
def State.resetWith (n : Nat) : State :=
  { eng := {}, others := List.replicate n {}, turns := [], draws := 0 }

/-- The machine right after reset (R26, R116, R117), with `P_N_ENGINES` engines on the bus (R5, log entry 4). -/
def State.reset : State := State.resetWith Config.furtherEngines

end Sys2Proof.Machine
end

