-- ==== Sys2Proof/Machine/Ops.lean ====
section
/-! DEFINITION. Ops.lean: the shared operations on the state: turns and fetching a request (R60, R113), refusing (R19,
R108), ending an operation by a value or an error (R74, R106), the transport and timer calls (R65 to R69), and the phases
of the transaction sequence (R62). -/

namespace Sys2Proof.Machine

/-- What a step or a meaning answers. -/
abbrev Result := Host.Outcome State Fault Refusal

/-- The state with the moving engine replaced. -/
def State.withEng (s : State) (e : Engine) : State := { s with eng := e }

/-! ### The shared bus (R120) -/

/-- The engine is between its operation's first bus access and its response (R120): its bus write is outstanding or done
and its response is not out. -/
def Engine.onBus (e : Engine) : Bool :=
  match e.phase with
  | .idle => false
  | .enc => false
  | .wr => true
  | .settle => true
  | .rd => true
  | .chk => true
  | .dec => true

/-- Another engine's operation has the bus (R120). -/
def State.busTaken (s : State) : Bool := s.others.any Engine.onBus

/-! ### Refusing (R9, R19, R55, R108) -/

/-- The sticky mark is set and the reason noted; nothing else changes (R19, R55). -/
def Engine.refuse (e : Engine) (r : Reason) : Engine :=
  { e with refused := true, reasons := e.reasons ++ [r] }

/-- `refuse(reason)` (R9): no response, no bus access, no other change. -/
def refuse (r : Reason) (s : State) : Result := .next (s.withEng (s.eng.refuse r))

/-! ### The end of an operation (R74, R106) -/

/-- IDLE, where op, TX and RX hold no value (R16, R18, R74). -/
def Engine.toIdle (e : Engine) : Engine :=
  { e with phase := .idle, op := none, tx := none, rx := none }

/-- The operation ends with one response; the attachment stays (R74). -/
def Engine.finish (e : Engine) (r : Response) : Engine :=
  { e.toIdle with resps := e.resps ++ [r] }

/-- `return v` (R9, R74). -/
def complete (v : Value) (s : State) : Result := .next (s.withEng (s.eng.finish (.ok v)))

/-- `raise kind` (R9, R74, R106): what an error does in the place of trap entry. Nothing is saved and there is no handler;
the next request starts from IDLE (R107). -/
def raise (k : ErrKind) (s : State) : Result := .next (s.withEng (s.eng.finish (.err k)))

/-- An operation refused before its first bus access: the mark is set, no response, and the engine is in IDLE again
(R120, log entry 10). -/
def refuseInEnc (r : Reason) (s : State) : Result := .next (s.withEng (s.eng.refuse r).toIdle)

/-! ### Transport and timer calls (R65 to R69) -/

/-- The frame a read of `n` bytes delivers (R33): position by position what the answer lists, and a free byte where it lists
none. It always has `n` bytes. -/
def fitFrame (pad : Nat → Byte) : Nat → Nat → Frame → Frame
  | 0, _, _ => []
  | n + 1, k, [] => pad k :: fitFrame pad n (k + 1) []
  | n + 1, k, b :: bs => b :: fitFrame pad n (k + 1) bs

/-- The transport's answer to the write now outstanding (R65, R68): the next of the script, else a free draw. -/
def State.writeReply (s : State) (hd : Handle) : Reply WriteOutcome :=
  match s.eng.writes with
  | r :: _ => r
  | [] => Config.freeWrite hd s.draws

/-- The timer's answer to the delay now outstanding (R67). -/
def State.delayReply (s : State) : Reply Unit :=
  match s.eng.delays with
  | r :: _ => r
  | [] => Config.freeDelay s.draws

/-- An answer to a read of `n` bytes has exactly `n` bytes or is an error (R33, R66). -/
def fitReply (pad : Nat → Byte) (n : Nat) : Reply ReadOutcome → Reply ReadOutcome
  | .answer (.rOk bs) => .answer (.rOk (fitFrame pad n 0 bs))
  | .answer (.rErr e) => .answer (.rErr e)
  | .silent => .silent

/-- The transport's answer to the read of `n` bytes now outstanding (R66, R68). -/
def State.readReply (s : State) (hd : Handle) (n : Nat) : Reply ReadOutcome :=
  match s.eng.reads with
  | r :: _ => fitReply (Config.freeByte s.draws) n r
  | [] => fitReply (Config.freeByte s.draws) n (Config.freeRead hd s.draws)

/-- After an answered write: one event in the trace (R20, R65). -/
def State.afterWrite (s : State) (bs : Frame) (o : WriteOutcome) : State :=
  { s with
    eng := { s.eng with writes := s.eng.writes.tail, trace := s.eng.trace ++ [.evWrite Config.pAddr bs o] }
    draws := s.draws + 1 }

/-- After a completed delay: one event in the trace (R20, R67). -/
def State.afterDelay (s : State) (d : Delay) : State :=
  { s with
    eng := { s.eng with delays := s.eng.delays.tail, trace := s.eng.trace ++ [delayEvent d] }
    draws := s.draws + 1 }

/-- After an answered read: one event in the trace (R20, R66). -/
def State.afterRead (s : State) (n : Nat) (o : ReadOutcome) : State :=
  { s with
    eng := { s.eng with reads := s.eng.reads.tail, trace := s.eng.trace ++ [.evRead Config.pAddr n o] }
    draws := s.draws + 1 }

/-- `BusWrite(P_ADDR, bs)` (R65): one call on the port of the attached transport (R59). -/
def busWrite (bs : Frame) (k : WriteOutcome → State → Result) (s : State) : Result :=
  match s.eng.att with
  | .detached => .fault .transportDetached
  | .attached hd =>
    match s.writeReply hd with
    | .silent => .fault (.unanswered .busWrite)
    | .answer o => k o (s.afterWrite bs o)

/-- `DelayMs(n)` or `DelayUs(n)` (R67): it never fails. -/
def delayFor (d : Delay) (k : State → Result) (s : State) : Result :=
  match s.delayReply with
  | .silent => .fault (.unanswered .delay)
  | .answer _ => k (s.afterDelay d)

/-- `BusRead(P_ADDR, n)` (R66): one call on the port of the attached transport (R59). -/
def busRead (n : Nat) (k : ReadOutcome → State → Result) (s : State) : Result :=
  match s.eng.att with
  | .detached => .fault .transportDetached
  | .attached hd =>
    match s.readReply hd n with
    | .silent => .fault (.unanswered .busRead)
    | .answer o => k o (s.afterRead n o)

/-! ### The phases of R62, one step each (R63) -/

/-- IDLE (R60, R61, R78, R120): a bus request is accepted while attached and while no other engine's operation has the
bus. -/
def acceptBus (r : Instr) (s : State) : Result :=
  match s.eng.att with
  | .detached => refuse .notAttached s
  | .attached _ =>
    if s.busTaken then refuse .sharedBusOverlap s
    else .next (s.withEng { s.eng with phase := .enc, op := some r })

/-- ENC (R62, R64): the write frame is built, or the range error ends the operation before any bus access (C3). The first
bus access follows, so it is refused if another engine's operation has the bus by now (R120, log entry 10). -/
def encPhase (op : BusOp) (r : Instr) (s : State) : Result :=
  match encodeTx op r with
  | .error k => raise k s
  | .ok f =>
    if s.busTaken then refuseInEnc .sharedBusOverlap s
    else .next (s.withEng { s.eng with phase := .wr, tx := some f })

/-- WR (R62, R65, R70): a failed write ends the operation with the transport's own error, no delay and no read. -/
def wrPhase (s : State) : Result :=
  match s.eng.tx with
  | none => .fault (.noValue .tx)
  | some f =>
    busWrite f (fun o s =>
      match o with
      | .wErr e => raise (.transport e) s
      | .wOk => .next (s.withEng { s.eng with phase := .settle })) s

/-- SETTLE of an operation without a read (R62, R67, D29): the response follows the delay. -/
def settleThenReturn (op : BusOp) (s : State) : Result :=
  delayFor (settleDelay op) (complete .unit) s

/-- SETTLE of an operation with a read (R62, R67). -/
def settleThenRead (op : BusOp) (s : State) : Result :=
  delayFor (settleDelay op) (fun s => .next (s.withEng { s.eng with phase := .rd })) s

/-- RD (R62, R66, R71): a failed read ends the operation with the transport's own error. -/
def rdPhase (op : BusOp) (s : State) : Result :=
  busRead (rxLen op) (fun o s =>
    match o with
    | .rErr e => raise (.transport e) s
    | .rOk bs => .next (s.withEng { s.eng with phase := .chk, rx := some bs })) s

/-- CHK (R62, R72, R93): one bad triplet ends the operation with the checksum error. -/
def chkPhase (s : State) : Result :=
  match s.eng.rx with
  | none => .fault (.noValue .rx)
  | some f =>
    if frameValid f then .next (s.withEng { s.eng with phase := .dec })
    else raise .checksumMismatch s

/-- DEC (R62): the decoded value is the response. -/
def decPhase (dec : Frame → Option Value) (s : State) : Result :=
  match s.eng.rx with
  | none => .fault (.noValue .rx)
  | some f =>
    match dec f with
    | none => .fault .frameLength
    | some v => complete v s

/-- The request in progress takes its step; another request is given none (R60). -/
def inProgress (r : Instr) (k : State → Result) (s : State) : Result :=
  if s.eng.op = some r then k s else .refused .portBusy

/-- The request port accepts only in IDLE (R60). -/
def whenIdle (k : State → Result) (s : State) : Result :=
  match s.eng.phase with
  | .idle => k s
  | _ => .refused .portBusy

/-- The sequence of R62 for an operation without a read, one step for each phase (R63). -/
def runWriteOnly (op : BusOp) (r : Instr) (s : State) : Result :=
  match s.eng.phase with
  | .idle => acceptBus r s
  | .enc => inProgress r (encPhase op r) s
  | .wr => inProgress r wrPhase s
  | .settle => inProgress r (settleThenReturn op) s
  | .rd => inProgress r (fun _ => .fault (.wrongPhase .rd)) s
  | .chk => inProgress r (fun _ => .fault (.wrongPhase .chk)) s
  | .dec => inProgress r (fun _ => .fault (.wrongPhase .dec)) s

/-- The sequence of R62 for an operation with a read, one step for each phase (R63). -/
def runReading (op : BusOp) (r : Instr) (dec : Frame → Option Value) (s : State) : Result :=
  match s.eng.phase with
  | .idle => acceptBus r s
  | .enc => inProgress r (encPhase op r) s
  | .wr => inProgress r wrPhase s
  | .settle => inProgress r (settleThenRead op) s
  | .rd => inProgress r (rdPhase op) s
  | .chk => inProgress r chkPhase s
  | .dec => inProgress r (decPhase dec) s

/-! ### Turns and fetching (R60, R113) -/

/-- Engine `k` moves: 0 is the one that moves now, k + 1 the k-th of the others, which changes places with it. A number
past the last engine names none, and the same engine goes on. -/
def State.focus (s : State) : Nat → State
  | 0 => s
  | k + 1 =>
    match s.others[k]? with
    | none => s
    | some e => { s with eng := e, others := s.others.set k s.eng }

/-- The next turn is taken; with none listed the same engine goes on (log entry 5). -/
def State.takeTurn (s : State) : State :=
  match s.turns with
  | [] => s
  | k :: ks => { s.focus k with turns := ks }

/-- The request at the head of the port is taken. -/
def State.popRequest (s : State) : State :=
  s.withEng { s.eng with reqs := s.eng.reqs.tail }

/-- What the moving engine does next. -/
inductive Fetched where
  /-- IDLE and nothing at the request port: it waits. -/
  | quiet
  /-- It takes a step of this request. -/
  | run (i : Instr) (s : State)
  /-- A phase of an operation with no operation in the register. -/
  | noOp
  /-- A request whose operand fields are not those of R45. -/
  | malformed (e : DecodeError)

/-- In IDLE the request at the port is decoded and taken (R60, R61); in every other phase the request in progress goes on
(R16, R62). -/
def fetch (s : State) : Fetched :=
  match s.eng.phase with
  | .idle =>
    match s.eng.reqs with
    | [] => .quiet
    | r :: _ =>
      match decode r with
      | .error e => .malformed e
      | .ok i => .run i s.popRequest
  | _ =>
    match s.eng.op with
    | none => .noOp
    | some i => .run i s

/-- The moving engine idle, with the request at the head of its port, and the same engine to move next. -/
def State.present (s : State) (r : Request) : State :=
  { s with
    eng := { s.eng.toIdle with reqs := r :: s.eng.reqs }
    turns := 0 :: s.turns }

end Sys2Proof.Machine
end

