-- ==== Sys2Proof/Machine/BusReading.lean ====
section
/-! DEFINITION. BusReading.lean: the seven bus operations with a read: MEASURE, GETBASE, GETBASE2, MEASRAW, SELFTEST,
GETFEAT, GETSERIAL. -/

namespace Sys2Proof.Machine

/-- MEASURE (R80). -/
def execMeasure (s : State) : Result := runReading .measure .measure decodeMeasure s

/-- GETBASE (R81). -/
def execGetbase (s : State) : Result := runReading .getbase .getbase decodeGetbase s

/-- GETBASE2 (R83). -/
def execGetbase2 (s : State) : Result := runReading .getbase2 .getbase2 decodeGetbase2 s

/-- MEASRAW (R85). -/
def execMeasraw (s : State) : Result := runReading .measraw .measraw decodeMeasraw s

/-- SELFTEST (R86). -/
def execSelftest (s : State) : Result := runReading .selftest .selftest decodeSelftest s

/-- GETFEAT (R88). -/
def execGetfeat (s : State) : Result := runReading .getfeat .getfeat decodeGetfeat s

/-- GETSERIAL (R89). -/
def execGetserial (s : State) : Result := runReading .getserial .getserial decodeGetserial s

end Sys2Proof.Machine
end

