-- ==== Sys2Proof/Machine/BusWriteOnly.lean ====
section
/-! DEFINITION. BusWriteOnly.lean: the four bus operations without a read: INIT, SETBASE, SETBASE2, SETHUM. -/

namespace Sys2Proof.Machine

/-- INIT (R79). -/
def execInit (s : State) : Result := runWriteOnly .init .init s

/-- SETBASE a, b (R82): `a` first. -/
def execSetbase (a b : Word) (s : State) : Result := runWriteOnly .setbase (.setbase a b) s

/-- SETBASE2 w (R84). -/
def execSetbase2 (w : Word) (s : State) : Result := runWriteOnly .setbase2 (.setbase2 w) s

/-- SETHUM h (R87). -/
def execSethum (h : Humidity) (s : State) : Result := runWriteOnly .sethum (.sethum h) s

end Sys2Proof.Machine
end

