-- ==== Sys2Proof/Machine/CodecUnit.lean ====
section
/-! DEFINITION. CodecUnit.lean: the bus-free pure requests CRC8 and FPENC, legal in either attachment state (R100, R101). -/

namespace Sys2Proof.Machine

/-- CRC8 data (R100). -/
def execCrc8 (data : List Byte) (s : State) : Result :=
  whenIdle (complete (.byte (crc8 data))) s

/-- FPENC h (R101). -/
def execFpenc (h : Humidity) (s : State) : Result :=
  whenIdle (fun s =>
    match fpenc h with
    | .error k => raise k s
    | .ok q => complete (.word q) s) s

end Sys2Proof.Machine
end

