-- ==== Sys2Proof/Machine/Lifecycle.lean ====
section
/-! DEFINITION. Lifecycle.lean: ATTACH and RELEASE (R76, R77, R78) and the reserved selector (R55). -/

namespace Sys2Proof.Machine

/-- ATTACH hd (R76): refused while attached (R78). -/
def execAttach (hd : Handle) (s : State) : Result :=
  whenIdle (fun s =>
    match s.eng.att with
    | .attached _ => refuse .alreadyAttached s
    | .detached => complete .unit (s.withEng { s.eng with att := .attached hd })) s

/-- RELEASE (R77): refused while detached (R78). -/
def execRelease (s : State) : Result :=
  whenIdle (fun s =>
    match s.eng.att with
    | .detached => refuse .notAttached s
    | .attached hd => complete (.handle hd) (s.withEng { s.eng with att := .detached })) s

/-- OPSEL 0xD (R55, D5): the mark is set and nothing else happens. -/
def execReserved (s : State) : Result := whenIdle (refuse .reservedSelector) s

end Sys2Proof.Machine
end

