-- ==== Sys2Proof/Machine/Dispatch.lean ====
section
/-! DEFINITION. Dispatch.lean: one arm for each request (R61). -/

namespace Sys2Proof.Machine

def exec (i : Instr) (s : State) : Host.Outcome State Fault Refusal :=
  match i with
  | .init => Sys2Proof.Machine.execInit s
  | .measure => Sys2Proof.Machine.execMeasure s
  | .getbase => Sys2Proof.Machine.execGetbase s
  | .setbase a b => Sys2Proof.Machine.execSetbase a b s
  | .getbase2 => Sys2Proof.Machine.execGetbase2 s
  | .setbase2 w => Sys2Proof.Machine.execSetbase2 w s
  | .measraw => Sys2Proof.Machine.execMeasraw s
  | .selftest => Sys2Proof.Machine.execSelftest s
  | .sethum h => Sys2Proof.Machine.execSethum h s
  | .getfeat => Sys2Proof.Machine.execGetfeat s
  | .getserial => Sys2Proof.Machine.execGetserial s
  | .crc8 data => Sys2Proof.Machine.execCrc8 data s
  | .fpenc h => Sys2Proof.Machine.execFpenc h s
  | .reserved => Sys2Proof.Machine.execReserved s
  | .attach hd => Sys2Proof.Machine.execAttach hd s
  | .release => Sys2Proof.Machine.execRelease s

end Sys2Proof.Machine
end

