-- ==== Sys2Proof/Machine/Step.lean ====
section
/-! DEFINITION. Step.lean: one step of the machine: one phase change of the engine whose turn it is (R63). -/

namespace Sys2Proof.Machine

/-- One step: the next turn is taken, and that engine accepts the request at its port or goes on with the one in progress
(R60, R62, R63). An idle engine with nothing at its port waits. -/
def step (s : State) : Host.Outcome State Fault Refusal :=
  match fetch s.takeTurn with
  | .quiet => .next s.takeTurn
  | .run i t => exec i t
  | .noOp => .fault (.noValue .op)
  | .malformed e => .refused (.operandFields e)

/-- The opcode-table word, with zero operands, at the head of the moving engine's request port, so that the next step
accepts it (log entry 11). A word that is no request leaves the state as it is. -/
def State.withFetchWord (s : State) (nbits w : Nat) : State :=
  match tableRequest nbits w with
  | none => s
  | some r => s.present r

end Sys2Proof.Machine
end

