-- ==== Sys2Proof/Safety.lean ====
section
/-! DEFINITION. Safety.lean: what the claims are stated in: well-formed engines and states (R16 to R20, R31, R33, R37), one
operation at a time on a shared bus (R120), the launch premise and the end of a run (R125, R128), an operation run to its
end, the transaction of R62 as one function of the answers, and the renaming of error payloads (R102). -/

namespace Sys2Proof

namespace Machine

/-! ### Well-formed engines and states -/

/-- An event as the block makes it: at `P_ADDR` (R37), a write frame of 2, 5 or 8 bytes (R34), a read that delivers exactly
the bytes asked for (R33). -/
def Event.WellFormed : Event → Prop
  | .evWrite addr bytes _ => addr = Config.pAddr ∧ (bytes.length = 2 ∨ bytes.length = 5 ∨ bytes.length = 8)
  | .evDelayMs _ => True
  | .evDelayUs _ => True
  | .evRead addr n (.rOk bytes) => addr = Config.pAddr ∧ bytes.length = n
  | .evRead addr _ (.rErr _) => addr = Config.pAddr

/-- An operation is in progress (R16, R17): the register holds a bus request and the handle is held. -/
def Engine.Running (e : Engine) (r : Instr) (op : BusOp) : Prop :=
  e.op = some r ∧ busOp? r = some op ∧ e.att ≠ .detached

/-- The registers hold what their phase says (R16, R18): TX the write frame of the request from WR on, RX a frame of the
operation's length from CHK on and a valid one in DEC, no value before, and none of them in IDLE. -/
def Engine.RegsFitPhase (e : Engine) : Prop :=
  match e.phase with
  | .idle => e.op = none ∧ e.tx = none ∧ e.rx = none
  | .enc => e.tx = none ∧ e.rx = none ∧ ∃ r op, e.Running r op
  | .wr => e.rx = none ∧ ∃ r op f, e.Running r op ∧ e.tx = some f ∧ encodeTx op r = .ok f
  | .settle => e.rx = none ∧ ∃ r op f, e.Running r op ∧ e.tx = some f ∧ encodeTx op r = .ok f
  | .rd => e.rx = none ∧ ∃ r op f, e.Running r op ∧ e.tx = some f ∧ encodeTx op r = .ok f ∧ rxLen op ≠ 0
  | .chk => ∃ r op f g, e.Running r op ∧ e.tx = some f ∧ encodeTx op r = .ok f ∧ rxLen op ≠ 0 ∧
      e.rx = some g ∧ g.length = rxLen op
  | .dec => ∃ r op f g, e.Running r op ∧ e.tx = some f ∧ encodeTx op r = .ok f ∧ rxLen op ≠ 0 ∧
      e.rx = some g ∧ g.length = rxLen op ∧ frameValid g = true

/-- A well-formed engine: registers that fit the phase, a trace of well-formed events, and the mark set exactly when a
reason is noted (R19, R108). -/
structure Engine.WellFormed (e : Engine) : Prop where
  regs : e.RegsFitPhase
  trace : ∀ ev ∈ e.trace, ev.WellFormed
  mark : e.refused = true ↔ e.reasons ≠ []

/-- Every engine on the bus, the moving one first. -/
def State.engines (s : State) : List Engine := s.eng :: s.others

/-- A well-formed state: every engine is. -/
def State.WellFormed (s : State) : Prop := ∀ e ∈ s.engines, e.WellFormed

/-- At most one engine's operation has the bus (R120). -/
def State.OneOnBus (s : State) : Prop := (s.engines.filter Engine.onBus).length ≤ 1

/-! ### Launch and end of a run (R125, R128) -/

/-- The launch premise on one engine (R128), from reset (`att = Detached`) or after an ATTACH. -/
def Engine.Launch (e : Engine) (att : Att) : Prop :=
  e.phase = .idle ∧ e.refused = false ∧ e.trace = [] ∧ e.att = att

/-- The run of one engine's requests has ended (R125, D20): the engine is in IDLE and every request has been taken from its
port. A request that was refused counts as over, though it has no response (log entry 24). -/
def Engine.RunEnded (e : Engine) : Prop := e.phase = .idle ∧ e.reqs = []

/-- It has ended successfully (R125, D20): in addition no request was refused. -/
def Engine.RunSucceeded (e : Engine) : Prop := e.RunEnded ∧ e.refused = false

/-- The run of all engines has ended: every one's has. R125 speaks of one engine; that a run of several ends with the last of
them is the model's choice (DESIGN CHOICE, log entry 24). -/
def State.RunEnded (s : State) : Prop := ∀ e ∈ s.engines, e.RunEnded

/-- The run of all engines has ended successfully: every one's has, which is the model's choice in the same way (DESIGN
CHOICE, log entry 24). -/
def State.RunSucceeded (s : State) : Prop := ∀ e ∈ s.engines, e.RunSucceeded

/-! ### Running one operation -/

/-- The moving engine can accept a bus request (R60, R61, R120): idle, attached to the handle, the bus not taken. -/
def State.Ready (s : State) (hd : Handle) : Prop :=
  s.eng.phase = .idle ∧ s.eng.att = .attached hd ∧ s.busTaken = false

/-- `k` steps of one request, each an `exec` that answers a next state; the first stop ends it. -/
def execTimes (i : Instr) : Nat → State → Result
  | 0, s => .next s
  | k + 1, s =>
    match exec i s with
    | .next t => execTimes i k t
    | .fault f => .fault f
    | .refused r => .refused r

/-- `k` steps of the machine in which the engine `e` moves, other engines moving between them as they like: before its
`j`-th own step, counted from 0, the others, the turns to come and the counter of draws are those of `env j`, whatever they
are. The engine itself is as its last own step left it, since another engine's step does not change it
(Obligations.TurnsSelectTheMovingEngine). The first stop ends it. -/
def ownSteps (env : Nat → State) (e : Engine) : Nat → Result
  | 0 => .next { env 0 with eng := e }
  | k + 1 =>
    match ownSteps env e k with
    | .next t => step { env k with eng := t.eng, turns := 0 :: (env k).turns }
    | .fault f => .fault f
    | .refused r => .refused r

/-- The machine's own run: `k` steps from `s`, in the order of its list of turns; the first stop ends it. -/
def runFrom (s : State) (k : Nat) : Result := Sys2Proof.core.run k s

/-- Within one to seven steps of a run the engine, which was `e`, is in IDLE with one response more, the requests `reqs`
left at its port, and the refusal mark as it was (R124). -/
def EndsInOneResponse (e : Engine) (reqs : List Request) (run : Nat → Result) : Prop :=
  ∃ k t resp, 1 ≤ k ∧ k ≤ 7 ∧ run k = .next t ∧
    t.eng.phase = .idle ∧ t.eng.reqs = reqs ∧ t.eng.resps = e.resps ++ [resp] ∧ t.eng.refused = e.refused

/-- The moving engine after a whole operation: back in IDLE, with the events and the response added. -/
def Engine.after (e : Engine) (evs : List Event) (resp : Response) : Engine :=
  { e with
    phase := .idle, op := none, tx := none, rx := none
    trace := e.trace ++ evs, resps := e.resps ++ [resp] }

/-- A write-only request `i` with write frame `tx` and delay event `d`, its write and its delay answered: four steps, one
write, one delay, no read, `Ok(())`, and nothing else changed. -/
def WritesAndReturns (i : Instr) (tx : Frame) (d : Event) : Prop :=
  ∀ (s : State) (hd : Handle) (ws : List (Reply WriteOutcome)) (ds : List (Reply Unit)),
    s.Ready hd → s.eng.writes = .answer .wOk :: ws → s.eng.delays = .answer () :: ds →
    execTimes i 4 s = .next
      { s with
        draws := s.draws + 2
        eng := { s.eng with writes := ws, delays := ds }.after [.evWrite Config.pAddr tx .wOk, d] (.ok .unit) }

/-- A bus request `i` whose write fails: three steps, the failed write alone in the trace, the transport's own error. -/
def EndsOnWriteError (i : Instr) (tx : Frame) : Prop :=
  ∀ (s : State) (hd : Handle) (ws : List (Reply WriteOutcome)) (e : TErr),
    s.Ready hd → s.eng.writes = .answer (.wErr e) :: ws →
    execTimes i 3 s = .next
      { s with
        draws := s.draws + 1
        eng := { s.eng with writes := ws }.after [.evWrite Config.pAddr tx (.wErr e)] (.err (.transport e)) }

/-- A reading request `i` whose read of `n` bytes fails: five steps, the transport's own error. -/
def EndsOnReadError (i : Instr) (tx : Frame) (d : Event) (n : Nat) : Prop :=
  ∀ (s : State) (hd : Handle) (ws : List (Reply WriteOutcome)) (ds : List (Reply Unit))
    (rs : List (Reply ReadOutcome)) (e : TErr),
    s.Ready hd → s.eng.writes = .answer .wOk :: ws → s.eng.delays = .answer () :: ds →
    s.eng.reads = .answer (.rErr e) :: rs →
    execTimes i 5 s = .next
      { s with
        draws := s.draws + 3
        eng := { s.eng with writes := ws, delays := ds, reads := rs }.after
          [.evWrite Config.pAddr tx .wOk, d, .evRead Config.pAddr n (.rErr e)] (.err (.transport e)) }

/-- A reading request `i` that is answered the frame `rx`, of which some triplet fails: six steps, one checksum error,
nothing of the frame returned. -/
def EndsOnChecksum (i : Instr) (tx : Frame) (d : Event) (rx : Frame) : Prop :=
  ∀ (s : State) (hd : Handle) (ws : List (Reply WriteOutcome)) (ds : List (Reply Unit)) (rs : List (Reply ReadOutcome)),
    s.Ready hd → s.eng.writes = .answer .wOk :: ws → s.eng.delays = .answer () :: ds →
    s.eng.reads = .answer (.rOk rx) :: rs →
    execTimes i 6 s = .next
      { s with
        draws := s.draws + 3
        eng := { s.eng with writes := ws, delays := ds, reads := rs }.after
          [.evWrite Config.pAddr tx .wOk, d, .evRead Config.pAddr rx.length (.rOk rx)] (.err .checksumMismatch) }

/-- A reading request `i` that is answered the frame `rx`: seven steps, the response `Ok(v)`. -/
def ReadsAndReturns (i : Instr) (tx : Frame) (d : Event) (rx : Frame) (v : Value) : Prop :=
  ∀ (s : State) (hd : Handle) (ws : List (Reply WriteOutcome)) (ds : List (Reply Unit)) (rs : List (Reply ReadOutcome)),
    s.Ready hd → s.eng.writes = .answer .wOk :: ws → s.eng.delays = .answer () :: ds →
    s.eng.reads = .answer (.rOk rx) :: rs →
    execTimes i 7 s = .next
      { s with
        draws := s.draws + 3
        eng := { s.eng with writes := ws, delays := ds, reads := rs }.after
          [.evWrite Config.pAddr tx .wOk, d, .evRead Config.pAddr rx.length (.rOk rx)] (.ok v) }

/-! ### The transaction of R62 as one function -/

/-- The decoding of each operation's response frame (R80 to R89). -/
def decodeRx : BusOp → Frame → Option Value
  | .measure => decodeMeasure
  | .getbase => decodeGetbase
  | .getbase2 => decodeGetbase2
  | .measraw => decodeMeasraw
  | .selftest => decodeSelftest
  | .getfeat => decodeGetfeat
  | .getserial => decodeGetserial
  | .init => fun _ => none
  | .setbase => fun _ => none
  | .setbase2 => fun _ => none
  | .sethum => fun _ => none

/-- The events and the response of a whole operation (R62), from the write's and the read's answers; none where a read
frame has not the operation's length. -/
def transaction (op : BusOp) (r : Instr) (w : WriteOutcome) (a : ReadOutcome) : Option (List Event × Response) :=
  match encodeTx op r with
  | .error k => some ([], .err k)
  | .ok tx =>
    match w with
    | .wErr e => some ([.evWrite Config.pAddr tx (.wErr e)], .err (.transport e))
    | .wOk =>
      if rxLen op = 0 then
        some ([.evWrite Config.pAddr tx .wOk, delayEvent (settleDelay op)], .ok .unit)
      else
        match a with
        | .rErr e =>
          some ([.evWrite Config.pAddr tx .wOk, delayEvent (settleDelay op), .evRead Config.pAddr (rxLen op) (.rErr e)],
            .err (.transport e))
        | .rOk rx =>
          if frameValid rx then
            (decodeRx op rx).map fun v =>
              ([.evWrite Config.pAddr tx .wOk, delayEvent (settleDelay op), .evRead Config.pAddr (rxLen op) (.rOk rx)],
                .ok v)
          else
            some ([.evWrite Config.pAddr tx .wOk, delayEvent (settleDelay op), .evRead Config.pAddr (rxLen op) (.rOk rx)],
              .err .checksumMismatch)

/-! ### Which error a request can raise (R103) -/

/-- The table of R103. -/
def mayRaise (i : Instr) (k : ErrKind) : Prop :=
  match busOp? i, k with
  | some _, .transport _ => True
  | some op, .checksumMismatch => rxLen op ≠ 0
  | some .sethum, .fixedPointRange => ∃ h, i = .sethum h ∧ fpenc h = .error .fixedPointRange
  | some _, .fixedPointRange => False
  | none, .fixedPointRange => ∃ h, i = .fpenc h ∧ fpenc h = .error .fixedPointRange
  | none, _ => False

/-! ### Renaming error payloads and handles (R5, R102: the block never looks inside one) -/

def WriteOutcome.rename (f : TErr → TErr) : WriteOutcome → WriteOutcome
  | .wOk => .wOk
  | .wErr e => .wErr (f e)

def ReadOutcome.rename (f : TErr → TErr) : ReadOutcome → ReadOutcome
  | .rOk bs => .rOk bs
  | .rErr e => .rErr (f e)

def Reply.map {α : Type} (f : α → α) : Reply α → Reply α
  | .answer a => .answer (f a)
  | .silent => .silent

def Event.rename (f : TErr → TErr) : Event → Event
  | .evWrite addr bs o => .evWrite addr bs (o.rename f)
  | .evDelayMs n => .evDelayMs n
  | .evDelayUs n => .evDelayUs n
  | .evRead addr n o => .evRead addr n (o.rename f)

def ErrKind.rename (f : TErr → TErr) : ErrKind → ErrKind
  | .transport e => .transport (f e)
  | .checksumMismatch => .checksumMismatch
  | .fixedPointRange => .fixedPointRange

def Value.rename (g : Handle → Handle) (v : Value) : Value :=
  match v with
  | .handle hd => .handle (g hd)
  | _ => v

def Response.rename (f : TErr → TErr) (g : Handle → Handle) : Response → Response
  | .err k => .err (k.rename f)
  | .ok v => .ok (v.rename g)

def Att.rename (g : Handle → Handle) : Att → Att
  | .detached => .detached
  | .attached hd => .attached (g hd)

end Machine

def Instr.rename (g : Handle → Handle) (i : Instr) : Instr :=
  match i with
  | .attach hd => .attach (g hd)
  | _ => i

def Field.rename (g : Handle → Handle) (x : Field) : Field :=
  match x with
  | .handle hd => .handle (g hd)
  | _ => x

def Request.rename (g : Handle → Handle) (r : Request) : Request := { r with fields := r.fields.map (Field.rename g) }

namespace Machine

/-- Every payload renamed by `f` and every handle by `g`, in all that the engine and its ports hold. -/
def Engine.rename (f : TErr → TErr) (g : Handle → Handle) (e : Engine) : Engine :=
  { e with
    att := e.att.rename g
    op := e.op.map (Instr.rename g)
    trace := e.trace.map (Event.rename f)
    reqs := e.reqs.map (Request.rename g)
    resps := e.resps.map (Response.rename f g)
    writes := e.writes.map (Reply.map (WriteOutcome.rename f))
    reads := e.reads.map (Reply.map (ReadOutcome.rename f)) }

/-- The state with the moving engine's payloads and handles renamed. -/
def State.rename (f : TErr → TErr) (g : Handle → Handle) (s : State) : State := { s with eng := s.eng.rename f g }

/-- An outcome with its next state renamed. -/
def renameResult (f : TErr → TErr) (g : Handle → Handle) : Result → Result
  | .next t => .next (t.rename f g)
  | .fault x => .fault x
  | .refused x => .refused x

end Machine
end Sys2Proof
end

