-- ==== Sys2Proof/Certificates/Slice0/Obligations.lean ====
section
/-! DEFINITION. Obligations.lean: the statements about the model, from the spec's numbered rules. -/

open Sys2Proof Sys2Proof.Machine

/-! ### Reset, requests and their encoding -/

/-- R26: after reset every engine on the bus, however many there are, is detached and idle, holds no request and no frame,
has refused nothing and has made no bus access and no delay. The machine's reset state has `P_N_ENGINES` engines (R5). -/
def Obligations.ResetLeavesEveryEngineDetached : Prop :=
  State.reset.engines.length = Config.nEngines ∧ State.reset = State.resetWith Config.furtherEngines ∧
  ∀ n, (State.resetWith n).engines.length = n + 1 ∧
    ∀ e ∈ (State.resetWith n).engines,
      e.att = .detached ∧ e.phase = .idle ∧ e.op = none ∧ e.tx = none ∧ e.rx = none ∧
      e.refused = false ∧ e.trace = []

/-- R60, R62, R63: in a step the engine whose turn it is, if idle, takes the request at its port and runs it; if an
operation is in progress, that operation's request takes its next step; if idle with nothing at the port, it waits. -/
def Obligations.StepRunsTheRequest : Prop :=
  ∀ s : State,
    (∀ r rs i, s.takeTurn.eng.phase = .idle → s.takeTurn.eng.reqs = r :: rs → decode r = .ok i →
      step s = exec i { s.takeTurn with eng := { s.takeTurn.eng with reqs := rs } }) ∧
    (∀ i, s.takeTurn.eng.phase ≠ .idle → s.takeTurn.eng.op = some i → step s = exec i s.takeTurn) ∧
    (s.takeTurn.eng.phase = .idle → s.takeTurn.eng.reqs = [] → step s = .next s.takeTurn)

/-- The host's word, put where the machine takes its next request, is what the next step runs, on the moving engine in
IDLE (log entry 11). -/
def Obligations.FetchedWordRunsNext : Prop :=
  ∀ (s : State) (nbits w : Nat) (i : Instr), decodeTableWord nbits w = some i →
    step (s.withFetchWord nbits w) = exec i { s with eng := s.eng.toIdle }

/-- R44, R45: the selector of each request with its operand fields in order, at every operand value; selector 0xD is the
reserved value. -/
def Obligations.SelectorsSelectTheirRequests : Prop :=
  decode ⟨0x0, []⟩ = .ok .init ∧ decode ⟨0x1, []⟩ = .ok .measure ∧ decode ⟨0x2, []⟩ = .ok .getbase ∧
  (∀ a b, decode ⟨0x3, [.word a, .word b]⟩ = .ok (.setbase a b)) ∧
  decode ⟨0x4, []⟩ = .ok .getbase2 ∧
  (∀ w, decode ⟨0x5, [.word w]⟩ = .ok (.setbase2 w)) ∧
  decode ⟨0x6, []⟩ = .ok .measraw ∧ decode ⟨0x7, []⟩ = .ok .selftest ∧
  (∀ h, decode ⟨0x8, [.humidity h]⟩ = .ok (.sethum h)) ∧
  decode ⟨0x9, []⟩ = .ok .getfeat ∧ decode ⟨0xA, []⟩ = .ok .getserial ∧
  (∀ data, decode ⟨0xB, [.bytes data]⟩ = .ok (.crc8 data)) ∧
  (∀ h, decode ⟨0xC, [.humidity h]⟩ = .ok (.fpenc h)) ∧
  decode ⟨0xD, []⟩ = .ok .reserved ∧
  (∀ hd, decode ⟨0xE, [.handle hd]⟩ = .ok (.attach hd)) ∧
  decode ⟨0xF, []⟩ = .ok .release

/-- R44, R45: the decoder and the encoder are inverse in both directions: a request at the port decodes to `i` exactly when
it is the encoding of `i`. -/
def Obligations.DecodeInvertsEncode : Prop :=
  ∀ (r : Request) (i : Instr), decode r = .ok i ↔ encode i = r

/-- R45: the requests at the port that decode are exactly those with R45's operand fields, and every selector value has
one. -/
def Obligations.WellFormedRequestsDecode : Prop :=
  (∀ r : Request, r.wellFormed = true ↔ ∃ i, decode r = .ok i) ∧
  ∀ opsel : BitVec 4, ∃ fields i, decode ⟨opsel, fields⟩ = .ok i

/-! ### Accepting and refusing -/

/-- R61, R62: a bus request at an idle, attached engine whose bus is not taken is accepted: phase ENC, the request in the
register, nothing else changed. -/
def Obligations.BusRequestIsAccepted : Prop :=
  ∀ (i : Instr) (op : BusOp) (s : State) (hd : Handle), busOp? i = some op → s.Ready hd →
    exec i s = .next { s with eng := { s.eng with phase := .enc, op := some i } }

/-- R60: while an operation is in progress, another request is given no step. -/
def Obligations.SecondRequestGetsNoStep : Prop :=
  ∀ (i : Instr) (s : State), s.eng.phase ≠ .idle → s.eng.op ≠ some i → exec i s = .refused .portBusy

/-- R55, R78: the reserved selector, a bus request or RELEASE while detached, and ATTACH while attached are refused: the
sticky mark is set (with the reason, which is the model's own note), and nothing else changes. -/
def Obligations.MeaninglessRequestsAreRefused : Prop :=
  ∀ s : State, s.eng.phase = .idle →
    exec .reserved s =
      .next { s with eng := { s.eng with refused := true, reasons := s.eng.reasons ++ [.reservedSelector] } } ∧
    (s.eng.att = .detached →
      (∀ i op, busOp? i = some op →
        exec i s = .next { s with eng := { s.eng with refused := true, reasons := s.eng.reasons ++ [.notAttached] } }) ∧
      exec .release s =
        .next { s with eng := { s.eng with refused := true, reasons := s.eng.reasons ++ [.notAttached] } }) ∧
    (∀ hd hd', s.eng.att = .attached hd →
      exec (.attach hd') s =
        .next { s with eng := { s.eng with refused := true, reasons := s.eng.reasons ++ [.alreadyAttached] } })

/-- R120: a bus request is refused while another engine's operation is between its first bus access and its response. An
operation accepted before that engine's first bus access is refused when it comes to its own (the model's choice of the
point, log entry 10): it ends with no bus access and no response. -/
def Obligations.OverlappingOperationsAreRefused : Prop :=
  ∀ (i : Instr) (op : BusOp) (s : State) (hd : Handle),
    busOp? i = some op → s.eng.att = .attached hd → (∃ e ∈ s.others, e.onBus = true) →
    (s.eng.phase = .idle →
      exec i s = .next
        { s with eng := { s.eng with refused := true, reasons := s.eng.reasons ++ [.sharedBusOverlap] } }) ∧
    (∀ f, s.eng.phase = .enc → s.eng.op = some i → encodeTx op i = .ok f →
      exec i s = .next
        { s with
          eng := { s.eng with
            refused := true, reasons := s.eng.reasons ++ [.sharedBusOverlap]
            phase := .idle, op := none, tx := none, rx := none } })

/-! ### The phases of the transaction (R62), for every bus request -/

/-- R64: in ENC the write frame is the command, followed for SETBASE by the triplets of `a` and `b`, for SETBASE2 by that
of `w`, for SETHUM by that of fpenc(h); a range error ends the operation with no bus access. -/
def Obligations.EncodingStepBuildsTheFrame : Prop :=
  ∀ s : State, s.eng.phase = .enc →
    (∀ k h, s.eng.op = some (.sethum h) → fpenc h = .error k →
      exec (.sethum h) s = .next
        { s with
          eng := { s.eng with
            phase := .idle, op := none, tx := none, rx := none
            resps := s.eng.resps ++ [.err .fixedPointRange] } }) ∧
    (s.busTaken = false →
      (∀ a b, s.eng.op = some (.setbase a b) →
        exec (.setbase a b) s = .next
          { s with eng := { s.eng with phase := .wr, tx := some (cmd .setbase ++ triplet a ++ triplet b) } }) ∧
      (∀ w, s.eng.op = some (.setbase2 w) →
        exec (.setbase2 w) s = .next
          { s with eng := { s.eng with phase := .wr, tx := some (cmd .setbase2 ++ triplet w) } }) ∧
      (∀ h q, s.eng.op = some (.sethum h) → fpenc h = .ok q →
        exec (.sethum h) s = .next
          { s with eng := { s.eng with phase := .wr, tx := some (cmd .sethum ++ triplet q) } }) ∧
      (∀ i op, s.eng.op = some i → busOp? i = some op → txLen op = 2 →
        exec i s = .next { s with eng := { s.eng with phase := .wr, tx := some (cmd op) } }))

/-- R65, R70: in WR the one bus write of TX at `P_ADDR` is recorded with its answer; `WOk` goes on to SETTLE, and `WErr(e)`
ends the operation at once with the transport's own error, no delay and no read. A write that is never answered leaves no
step (R69). -/
def Obligations.WriteStepFollowsTheAnswer : Prop :=
  ∀ (i : Instr) (op : BusOp) (s : State) (hd : Handle) (f : Frame),
    busOp? i = some op → s.eng.phase = .wr → s.eng.op = some i → s.eng.tx = some f → s.eng.att = .attached hd →
    (s.writeReply hd = .answer .wOk →
      exec i s = .next
        { s with
          draws := s.draws + 1
          eng := { s.eng with
            phase := .settle, writes := s.eng.writes.tail
            trace := s.eng.trace ++ [.evWrite Config.pAddr f .wOk] } }) ∧
    (∀ e, s.writeReply hd = .answer (.wErr e) →
      exec i s = .next
        { s with
          draws := s.draws + 1
          eng := { s.eng with
            phase := .idle, op := none, tx := none, rx := none, writes := s.eng.writes.tail
            trace := s.eng.trace ++ [.evWrite Config.pAddr f (.wErr e)]
            resps := s.eng.resps ++ [.err (.transport e)] } }) ∧
    (s.writeReply hd = .silent → exec i s = .fault (.unanswered .busWrite))

/-- R67: in SETTLE the operation's own delay is recorded once the timer completes; a write-only operation then answers
`Ok(())`, and a reading one goes on to RD. A delay that never completes leaves no step (R69). -/
def Obligations.SettleStepWaitsTheDelay : Prop :=
  ∀ (i : Instr) (op : BusOp) (s : State),
    busOp? i = some op → s.eng.phase = .settle → s.eng.op = some i →
    (s.delayReply = .answer () → rxLen op = 0 →
      exec i s = .next
        { s with
          draws := s.draws + 1
          eng := { s.eng with
            phase := .idle, op := none, tx := none, rx := none, delays := s.eng.delays.tail
            trace := s.eng.trace ++ [delayEvent (settleDelay op)]
            resps := s.eng.resps ++ [.ok .unit] } }) ∧
    (s.delayReply = .answer () → rxLen op ≠ 0 →
      exec i s = .next
        { s with
          draws := s.draws + 1
          eng := { s.eng with
            phase := .rd, delays := s.eng.delays.tail
            trace := s.eng.trace ++ [delayEvent (settleDelay op)] } }) ∧
    (s.delayReply = .silent → exec i s = .fault (.unanswered .delay))

/-- R33, R66, R71: in RD the one bus read of RXLEN bytes at `P_ADDR` is recorded with its answer; `ROk(bs)` has exactly that
many bytes, which are RX from CHK on, and `RErr(e)` ends the operation at once with the transport's own error. A read that
is never answered leaves no step (R69). -/
def Obligations.ReadStepFollowsTheAnswer : Prop :=
  ∀ (i : Instr) (op : BusOp) (s : State) (hd : Handle),
    busOp? i = some op → rxLen op ≠ 0 → s.eng.phase = .rd → s.eng.op = some i → s.eng.att = .attached hd →
    (∀ bs, s.readReply hd (rxLen op) = .answer (.rOk bs) →
      bs.length = rxLen op ∧
      exec i s = .next
        { s with
          draws := s.draws + 1
          eng := { s.eng with
            phase := .chk, rx := some bs, reads := s.eng.reads.tail
            trace := s.eng.trace ++ [.evRead Config.pAddr (rxLen op) (.rOk bs)] } }) ∧
    (∀ e, s.readReply hd (rxLen op) = .answer (.rErr e) →
      exec i s = .next
        { s with
          draws := s.draws + 1
          eng := { s.eng with
            phase := .idle, op := none, tx := none, rx := none, reads := s.eng.reads.tail
            trace := s.eng.trace ++ [.evRead Config.pAddr (rxLen op) (.rErr e)]
            resps := s.eng.resps ++ [.err (.transport e)] } }) ∧
    (s.readReply hd (rxLen op) = .silent → exec i s = .fault (.unanswered .busRead))

/-- R72: in CHK a frame with any bad triplet ends the operation with the one checksum error, nothing of it returned; a valid
one goes on to DEC. -/
def Obligations.CheckStepRejectsBadFrames : Prop :=
  ∀ (i : Instr) (op : BusOp) (s : State) (rx : Frame),
    busOp? i = some op → rxLen op ≠ 0 → s.eng.phase = .chk → s.eng.op = some i → s.eng.rx = some rx →
    (frameValid rx = false →
      exec i s = .next
        { s with
          eng := { s.eng with
            phase := .idle, op := none, tx := none, rx := none
            resps := s.eng.resps ++ [.err .checksumMismatch] } }) ∧
    (frameValid rx = true → exec i s = .next { s with eng := { s.eng with phase := .dec } })

/-- R62, R80 to R89: in DEC each reading operation answers its value and is back in IDLE, whatever the data bytes are. -/
def Obligations.DecodeStepAnswersTheValue : Prop :=
  ∀ (s : State) (d0 d1 c0 d2 d3 c1 d4 d5 c2 : Byte), s.eng.phase = .dec →
    (s.eng.rx = some [d0, d1, c0, d2, d3, c1] →
      (s.eng.op = some .measure →
        exec .measure s = .next { s with eng := s.eng.after [] (.ok (.air (w16 d0 d1) (w16 d2 d3))) }) ∧
      (s.eng.op = some .getbase →
        exec .getbase s = .next { s with eng := s.eng.after [] (.ok (.baseline (w16 d0 d1) (w16 d2 d3))) })) ∧
    (s.eng.rx = some [d0, d1, c0] →
      (s.eng.op = some .getbase2 →
        exec .getbase2 s = .next { s with eng := s.eng.after [] (.ok (.word (w16 d0 d1))) }) ∧
      (s.eng.op = some .measraw →
        exec .measraw s = .next { s with eng := s.eng.after [] (.ok (.word (w16 d0 d1))) }) ∧
      (s.eng.op = some .selftest →
        exec .selftest s = .next { s with eng := s.eng.after [] (.ok (.flag (w16 d0 d1 == 0xD400#16))) }) ∧
      (s.eng.op = some .getfeat →
        exec .getfeat s = .next { s with eng := s.eng.after [] (.ok (.feature (d0.extractLsb' 4 4) d1)) })) ∧
    (s.eng.rx = some [d0, d1, c0, d2, d3, c1, d4, d5, c2] → s.eng.op = some .getserial →
      exec .getserial s = .next
        { s with eng := s.eng.after [] (.ok (.serial (0#16 ++ w16 d0 d1 ++ w16 d2 d3 ++ w16 d4 d5))) })

/-! ### The eleven operations from acceptance to response -/

/-- R79: INIT writes its command, waits 10 ms and answers `Ok(())`, with one write, one delay and no read; a failed write is
its only error. -/
def Obligations.InitRuns : Prop :=
  WritesAndReturns .init (cmd .init) (.evDelayMs 10) ∧ EndsOnWriteError .init (cmd .init)

/-- R80: MEASURE answers its two words in frame order, over their full range, when both triplets pass, and the checksum
error when either fails. -/
def Obligations.MeasureRuns : Prop :=
  EndsOnWriteError .measure (cmd .measure) ∧
  EndsOnReadError .measure (cmd .measure) (.evDelayMs 12) 6 ∧
  ∀ d0 d1 c0 d2 d3 c1 : Byte,
    (crc8 [d0, d1] ≠ c0 ∨ crc8 [d2, d3] ≠ c1 →
      EndsOnChecksum .measure (cmd .measure) (.evDelayMs 12) [d0, d1, c0, d2, d3, c1]) ∧
    (crc8 [d0, d1] = c0 → crc8 [d2, d3] = c1 →
      ReadsAndReturns .measure (cmd .measure) (.evDelayMs 12) [d0, d1, c0, d2, d3, c1]
        (.air (w16 d0 d1) (w16 d2 d3)))

/-- R81: GETBASE answers the baseline pair in frame order when both triplets pass. -/
def Obligations.GetbaseRuns : Prop :=
  EndsOnWriteError .getbase (cmd .getbase) ∧
  EndsOnReadError .getbase (cmd .getbase) (.evDelayMs 10) 6 ∧
  ∀ d0 d1 c0 d2 d3 c1 : Byte,
    (crc8 [d0, d1] ≠ c0 ∨ crc8 [d2, d3] ≠ c1 →
      EndsOnChecksum .getbase (cmd .getbase) (.evDelayMs 10) [d0, d1, c0, d2, d3, c1]) ∧
    (crc8 [d0, d1] = c0 → crc8 [d2, d3] = c1 →
      ReadsAndReturns .getbase (cmd .getbase) (.evDelayMs 10) [d0, d1, c0, d2, d3, c1]
        (.baseline (w16 d0 d1) (w16 d2 d3)))

/-- R82: SETBASE writes its command and the triplets of `a` and `b` in the order given, waits 10 ms and answers `Ok(())`. -/
def Obligations.SetbaseRuns : Prop :=
  ∀ a b : Word,
    WritesAndReturns (.setbase a b)
      (cmd .setbase ++ [hi8 a, lo8 a, crc8 [hi8 a, lo8 a]] ++ [hi8 b, lo8 b, crc8 [hi8 b, lo8 b]]) (.evDelayMs 10) ∧
    EndsOnWriteError (.setbase a b)
      (cmd .setbase ++ [hi8 a, lo8 a, crc8 [hi8 a, lo8 a]] ++ [hi8 b, lo8 b, crc8 [hi8 b, lo8 b]])

/-- R83: GETBASE2 answers its word unchanged when its triplet passes. -/
def Obligations.Getbase2Runs : Prop :=
  EndsOnWriteError .getbase2 (cmd .getbase2) ∧
  EndsOnReadError .getbase2 (cmd .getbase2) (.evDelayMs 10) 3 ∧
  ∀ d0 d1 c0 : Byte,
    (crc8 [d0, d1] ≠ c0 → EndsOnChecksum .getbase2 (cmd .getbase2) (.evDelayMs 10) [d0, d1, c0]) ∧
    (crc8 [d0, d1] = c0 →
      ReadsAndReturns .getbase2 (cmd .getbase2) (.evDelayMs 10) [d0, d1, c0] (.word (w16 d0 d1)))

/-- R84: SETBASE2 writes its command and the triplet of `w`, waits 10 ms and answers `Ok(())`. -/
def Obligations.Setbase2Runs : Prop :=
  ∀ w : Word,
    WritesAndReturns (.setbase2 w) (cmd .setbase2 ++ [hi8 w, lo8 w, crc8 [hi8 w, lo8 w]]) (.evDelayMs 10) ∧
    EndsOnWriteError (.setbase2 w) (cmd .setbase2 ++ [hi8 w, lo8 w, crc8 [hi8 w, lo8 w]])

/-- R85: MEASRAW waits 25 ms, reads 3 bytes and answers their word when its triplet passes. -/
def Obligations.MeasrawRuns : Prop :=
  EndsOnWriteError .measraw (cmd .measraw) ∧
  EndsOnReadError .measraw (cmd .measraw) (.evDelayMs 25) 3 ∧
  ∀ d0 d1 c0 : Byte,
    (crc8 [d0, d1] ≠ c0 → EndsOnChecksum .measraw (cmd .measraw) (.evDelayMs 25) [d0, d1, c0]) ∧
    (crc8 [d0, d1] = c0 →
      ReadsAndReturns .measraw (cmd .measraw) (.evDelayMs 25) [d0, d1, c0] (.word (w16 d0 d1)))

/-- R86: SELFTEST waits 220 ms, reads 3 bytes and answers whether the whole word is 0xD400 when the triplet passes; a failed
checksum is an error whatever the data bytes. -/
def Obligations.SelftestRuns : Prop :=
  EndsOnWriteError .selftest (cmd .selftest) ∧
  EndsOnReadError .selftest (cmd .selftest) (.evDelayMs 220) 3 ∧
  ∀ d0 d1 c0 : Byte,
    (crc8 [d0, d1] ≠ c0 → EndsOnChecksum .selftest (cmd .selftest) (.evDelayMs 220) [d0, d1, c0]) ∧
    (crc8 [d0, d1] = c0 →
      ReadsAndReturns .selftest (cmd .selftest) (.evDelayMs 220) [d0, d1, c0]
        (.flag (decide (d0 = 0xD4#8 ∧ d1 = 0x00#8))))

/-- R87: SETHUM writes its command and the triplet of fpenc(h), waits 10 ms and answers `Ok(())`; when fpenc(h) fails it
ends after two steps with the range error, with no write and no delay. -/
def Obligations.SethumRuns : Prop :=
  ∀ h : Humidity,
    (∀ q, fpenc h = .ok q →
      WritesAndReturns (.sethum h) (cmd .sethum ++ [hi8 q, lo8 q, crc8 [hi8 q, lo8 q]]) (.evDelayMs 10) ∧
      EndsOnWriteError (.sethum h) (cmd .sethum ++ [hi8 q, lo8 q, crc8 [hi8 q, lo8 q]])) ∧
    (∀ k s hd, fpenc h = .error k → s.Ready hd →
      execTimes (.sethum h) 2 s = .next { s with eng := s.eng.after [] (.err .fixedPointRange) })

/-- R88: GETFEAT answers the high nibble of the first byte and the second byte when its triplet passes, and the checksum
error when it fails. -/
def Obligations.GetfeatRuns : Prop :=
  EndsOnWriteError .getfeat (cmd .getfeat) ∧
  EndsOnReadError .getfeat (cmd .getfeat) (.evDelayMs 10) 3 ∧
  ∀ d0 d1 c0 : Byte,
    (crc8 [d0, d1] ≠ c0 → EndsOnChecksum .getfeat (cmd .getfeat) (.evDelayMs 10) [d0, d1, c0]) ∧
    (crc8 [d0, d1] = c0 →
      ReadsAndReturns .getfeat (cmd .getfeat) (.evDelayMs 10) [d0, d1, c0]
        (.feature (BitVec.ofNat 4 (d0.toNat / 16)) d1))

/-- R89: GETSERIAL waits 500 µs, reads 9 bytes and answers the three words as one number, highest first, when all three
triplets pass. -/
def Obligations.GetserialRuns : Prop :=
  EndsOnWriteError .getserial (cmd .getserial) ∧
  EndsOnReadError .getserial (cmd .getserial) (.evDelayUs 500) 9 ∧
  ∀ d0 d1 c0 d2 d3 c1 d4 d5 c2 : Byte,
    (crc8 [d0, d1] ≠ c0 ∨ crc8 [d2, d3] ≠ c1 ∨ crc8 [d4, d5] ≠ c2 →
      EndsOnChecksum .getserial (cmd .getserial) (.evDelayUs 500) [d0, d1, c0, d2, d3, c1, d4, d5, c2]) ∧
    (crc8 [d0, d1] = c0 → crc8 [d2, d3] = c1 → crc8 [d4, d5] = c2 →
      ∃ v : BitVec 64,
        v.toNat = (w16 d0 d1).toNat * 4294967296 + (w16 d2 d3).toNat * 65536 + (w16 d4 d5).toNat ∧
        ReadsAndReturns .getserial (cmd .getserial) (.evDelayUs 500) [d0, d1, c0, d2, d3, c1, d4, d5, c2]
          (.serial v))

/-! ### The bus-free requests -/

/-- R100: CRC8 answers the checksum of its operand in either attachment state and changes nothing else: back in IDLE, no
event, the attachment as it was. -/
def Obligations.Crc8Answers : Prop :=
  ∀ (data : List Byte) (s : State), s.eng.phase = .idle →
    exec (.crc8 data) s = .next { s with eng := s.eng.after [] (.ok (.byte (crc8 data))) }

/-- R101: FPENC answers fpenc(h), a word or the range error, in either attachment state and changes nothing else. -/
def Obligations.FpencAnswers : Prop :=
  ∀ (h : Humidity) (s : State), s.eng.phase = .idle →
    (∀ q, fpenc h = .ok q → exec (.fpenc h) s = .next { s with eng := s.eng.after [] (.ok (.word q)) }) ∧
    (∀ k, fpenc h = .error k →
      exec (.fpenc h) s = .next { s with eng := s.eng.after [] (.err .fixedPointRange) })

/-- R76: ATTACH at a detached engine takes the handle, with no bus traffic and no delay, and answers `Ok(())`; at an attached
one it is refused. -/
def Obligations.AttachTakesTheHandle : Prop :=
  ∀ (hd : Handle) (s : State), s.eng.phase = .idle →
    (s.eng.att = .detached →
      exec (.attach hd) s = .next { s with eng := { s.eng with att := .attached hd }.after [] (.ok .unit) }) ∧
    (∀ hd', s.eng.att = .attached hd' →
      exec (.attach hd) s =
        .next { s with eng := { s.eng with refused := true, reasons := s.eng.reasons ++ [.alreadyAttached] } })

/-- R77: RELEASE at an attached engine gives back the handle it holds and detaches, with no bus traffic and no delay; at a
detached one it is refused. -/
def Obligations.ReleaseReturnsTheHandle : Prop :=
  ∀ s : State, s.eng.phase = .idle →
    (∀ hd, s.eng.att = .attached hd →
      exec .release s = .next { s with eng := { s.eng with att := .detached }.after [] (.ok (.handle hd)) }) ∧
    (s.eng.att = .detached →
      exec .release s =
        .next { s with eng := { s.eng with refused := true, reasons := s.eng.reasons ++ [.notAttached] } })

/-! ### The checksum and codec unit -/

/-- R90: the checksum starts at 0xFF, takes each byte by exclusive or and eight shifts with 0x31 fed back from bit 7, and
gives the reference values. -/
def Obligations.Crc8FollowsTheRule : Prop :=
  crc8 [] = 0xFF#8 ∧
  (∀ (data : List Byte) (b : Byte),
    crc8 (data ++ [b]) =
      (fun c : Byte => if c.getLsbD 7 then (c <<< 1) ^^^ 0x31#8 else c <<< 1)^[8] (crc8 data ^^^ b)) ∧
  crc8 [0xBE#8, 0xEF#8] = 0x92#8 ∧ crc8 [0x00#8, 0x00#8] = 0x81#8

/-- R91: a list followed by its own checksum has checksum 0. -/
def Obligations.ListWithItsChecksumSumsToZero : Prop :=
  ∀ data : List Byte, crc8 (data ++ [crc8 data]) = 0x00#8

/-- R91: a triplet that passes its check fails it when exactly one of its three bytes is altered, whatever the word and
the replacement. -/
def Obligations.OneAlteredByteFailsTheCheck : Prop :=
  ∀ d0 d1 c x : Byte, frameValid [d0, d1, c] = true →
    (x ≠ d0 → frameValid [x, d1, c] = false) ∧
    (x ≠ d1 → frameValid [d0, x, c] = false) ∧
    (x ≠ c → frameValid [d0, d1, x] = false)

/-- R97, R98: fpenc on exact rationals: floor and truncated fraction for values from 0 to below 256, which is the floor of
256 times the value; the range error for every other value. -/
def Obligations.FpencTruncatesExactly : Prop :=
  ∀ q : ℚ,
    (0 ≤ q → q < 256 →
      ∃ w : Word, fpenc (.exact q) = .ok w ∧
        (w.toNat : ℤ) = ⌊q⌋ * 256 + ⌊(q - ⌊q⌋) * 256⌋ ∧ (w.toNat : ℤ) = ⌊256 * q⌋ ∧
        (w.toNat : ℚ) / 256 ≤ q ∧ q < ((w.toNat : ℚ) + 1) / 256) ∧
    (q < 0 ∨ 256 ≤ q → fpenc (.exact q) = .error .fixedPointRange)

/-- R99: the check on the scaled fraction is never taken. -/
def Obligations.FractionCheckIsNeverTaken : Prop :=
  ∀ q : ℚ, 0 ≤ ratFraction q (ratFloor q) ∧ ratFraction q (ratFloor q) ≤ 255

/-- R96: values of a binary float that have no rational value give the range error. -/
def Obligations.NonFiniteValuesAreOutOfRange : Prop :=
  fpenc .nan = .error .fixedPointRange ∧ fpenc .posInf = .error .fixedPointRange ∧
  fpenc .negInf = .error .fixedPointRange

/-- R8, R94: a word is assembled high byte first, `hi * 256 + lo`, and its two bytes are its high and low eight bits. -/
def Obligations.WordsAreBigEndian : Prop :=
  (∀ hi lo : Byte, (w16 hi lo).toNat = hi.toNat * 256 + lo.toNat) ∧
  ∀ w : Word, be w = [BitVec.ofNat 8 (w.toNat / 256), BitVec.ofNat 8 (w.toNat % 256)] ∧ w16 (hi8 w) (lo8 w) = w

/-- R48: a word is three bytes on the wire, high byte, low byte and the checksum of those two; a frame that begins with it is
valid when the rest is, and its first word is that word. -/
def Obligations.TripletCarriesItsWord : Prop :=
  ∀ (w : Word) (rest : Frame),
    triplet w = [BitVec.ofNat 8 (w.toNat / 256), BitVec.ofNat 8 (w.toNat % 256),
      crc8 [BitVec.ofNat 8 (w.toNat / 256), BitVec.ofNat 8 (w.toNat % 256)]] ∧
    frameValid (triplet w ++ rest) = frameValid rest ∧
    frameWords (triplet w ++ rest) = w :: frameWords rest

/-- R93: a response frame of one, two or three triplets is valid when each of its triplets is. -/
def Obligations.FrameIsValidWhenEveryTripletIs : Prop :=
  ∀ d0 d1 c0 d2 d3 c1 d4 d5 c2 : Byte,
    (frameValid [d0, d1, c0] = true ↔ crc8 [d0, d1] = c0) ∧
    (frameValid [d0, d1, c0, d2, d3, c1] = true ↔ crc8 [d0, d1] = c0 ∧ crc8 [d2, d3] = c1) ∧
    (frameValid [d0, d1, c0, d2, d3, c1, d4, d5, c2] = true ↔
      crc8 [d0, d1] = c0 ∧ crc8 [d2, d3] = c1 ∧ crc8 [d4, d5] = c2)

/-- R53: the serial identifier's bits: 63:48 zero, then the three words, highest first. -/
def Obligations.SerialHoldsTheThreeWords : Prop :=
  ∀ d0 d1 c0 d2 d3 c1 d4 d5 c2 : Byte, ∃ v : BitVec 64,
    decodeGetserial [d0, d1, c0, d2, d3, c1, d4, d5, c2] = some (.serial v) ∧
    v.extractLsb' 48 16 = 0#16 ∧ v.extractLsb' 32 16 = w16 d0 d1 ∧
    v.extractLsb' 16 16 = w16 d2 d3 ∧ v.extractLsb' 0 16 = w16 d4 d5

/-- R34, R46, R49: every write frame has the length TXLEN of its operation, whatever the operands. -/
def Obligations.WriteFramesHaveTheirLength : Prop :=
  ∀ (i : Instr) (op : BusOp) (f : Frame), busOp? i = some op → encodeTx op i = .ok f → f.length = txLen op

/-- R46, R127: the settle delay, write length and read length of each operation. -/
def Obligations.OperationTable : Prop :=
  (delayEvent (settleDelay .init) = .evDelayMs 10 ∧ txLen .init = 2 ∧ rxLen .init = 0) ∧
  (delayEvent (settleDelay .measure) = .evDelayMs 12 ∧ txLen .measure = 2 ∧ rxLen .measure = 6) ∧
  (delayEvent (settleDelay .getbase) = .evDelayMs 10 ∧ txLen .getbase = 2 ∧ rxLen .getbase = 6) ∧
  (delayEvent (settleDelay .setbase) = .evDelayMs 10 ∧ txLen .setbase = 8 ∧ rxLen .setbase = 0) ∧
  (delayEvent (settleDelay .getbase2) = .evDelayMs 10 ∧ txLen .getbase2 = 2 ∧ rxLen .getbase2 = 3) ∧
  (delayEvent (settleDelay .setbase2) = .evDelayMs 10 ∧ txLen .setbase2 = 5 ∧ rxLen .setbase2 = 0) ∧
  (delayEvent (settleDelay .measraw) = .evDelayMs 25 ∧ txLen .measraw = 2 ∧ rxLen .measraw = 3) ∧
  (delayEvent (settleDelay .selftest) = .evDelayMs 220 ∧ txLen .selftest = 2 ∧ rxLen .selftest = 3) ∧
  (delayEvent (settleDelay .sethum) = .evDelayMs 10 ∧ txLen .sethum = 5 ∧ rxLen .sethum = 0) ∧
  (delayEvent (settleDelay .getfeat) = .evDelayMs 10 ∧ txLen .getfeat = 2 ∧ rxLen .getfeat = 3) ∧
  (delayEvent (settleDelay .getserial) = .evDelayUs 500 ∧ txLen .getserial = 2 ∧ rxLen .getserial = 9)

/-- R102: the numeric result code of each response. -/
def Obligations.ResultCodes : Prop :=
  (∀ v, (Response.ok v).code = 0) ∧ (∀ e, (Response.err (.transport e)).code = 1) ∧
  (Response.err .checksumMismatch).code = 2 ∧ (Response.err .fixedPointRange).code = 3

/-! ### What every request keeps -/

/-- R17: the attachment is written only by ATTACH, which takes its own handle, and by RELEASE, which detaches; no other
request changes it, whether it answers a value, an error or a refusal. -/
def Obligations.AttachmentIsWrittenByLifecycleOnly : Prop :=
  ∀ (i : Instr) (s t : State), exec i s = .next t →
    t.eng.att = s.eng.att ∨
    (∃ hd, i = .attach hd ∧ s.eng.att = .detached ∧ t.eng.att = .attached hd) ∨
    (∃ hd, i = .release ∧ s.eng.att = .attached hd ∧ t.eng.att = .detached)

/-- R20: every transport and timer interaction appends one event, in the order it happens, and nothing else changes the
trace. The steps in WR, SETTLE and RD are the interactions (R63). -/
def Obligations.TraceGrowsByInteractionsOnly : Prop :=
  ∀ (i : Instr) (s t : State), exec i s = .next t →
    match s.eng.phase with
    | .wr => ∃ f o, s.eng.tx = some f ∧ t.eng.trace = s.eng.trace ++ [.evWrite Config.pAddr f o]
    | .settle => ∃ op, busOp? i = some op ∧ t.eng.trace = s.eng.trace ++ [delayEvent (settleDelay op)]
    | .rd => ∃ op o, busOp? i = some op ∧ t.eng.trace = s.eng.trace ++ [.evRead Config.pAddr (rxLen op) o]
    | _ => t.eng.trace = s.eng.trace

/-- R19: the refusal mark is set exactly by the steps that refuse, which note one reason and answer nothing, and is never
cleared. -/
def Obligations.RefusalMarkIsSticky : Prop :=
  ∀ (i : Instr) (s t : State), exec i s = .next t →
    (t.eng.refused = s.eng.refused ∧ t.eng.reasons = s.eng.reasons) ∨
    (∃ r, t.eng.refused = true ∧ t.eng.reasons = s.eng.reasons ++ [r] ∧ t.eng.resps = s.eng.resps ∧
      t.eng.trace = s.eng.trace ∧ t.eng.att = s.eng.att ∧ t.eng.phase = .idle)

/-- R74: a step gives at most one response, and a step that gives one leaves the engine in IDLE with no value in op, TX and
RX; a step that gives none and leaves the engine in IDLE is itself a refusal, which sets the mark and notes its reason
(R108, R120; the note is the model's, log entry 8). -/
def Obligations.OperationEndsInOneResponse : Prop :=
  ∀ (i : Instr) (s t : State), exec i s = .next t →
    (∃ r, t.eng.resps = s.eng.resps ++ [r] ∧
      t.eng.phase = .idle ∧ t.eng.op = none ∧ t.eng.tx = none ∧ t.eng.rx = none) ∨
    (t.eng.resps = s.eng.resps ∧
      (t.eng.phase ≠ .idle ∨ (t.eng.refused = true ∧ ∃ r, t.eng.reasons = s.eng.reasons ++ [r])))

/-- R103: the errors each request can raise: the transport's by the bus operations, the checksum error by those with a
response frame, the range error by SETHUM and FPENC on a value fpenc rejects, and no other. -/
def Obligations.ErrorsOfEachRequest : Prop :=
  ∀ (i : Instr) (s t : State) (k : ErrKind), exec i s = .next t →
    t.eng.resps = s.eng.resps ++ [.err k] → mayRaise i k

/-- R27: no request changes another engine, or whose turn comes next. -/
def Obligations.OtherEnginesAreUntouched : Prop :=
  ∀ (i : Instr) (s t : State), exec i s = .next t → t.others = s.others ∧ t.turns = s.turns

/-- R27, R113: which engine a step moves, and that it moves no other. With no turn listed, turn 0, or a turn past the last
engine, the engine that moved last moves again; turn k + 1 moves the k-th of the others, which changes places with it; and
the step changes no engine but the one whose turn it is, and takes one turn. That turns are a list in the state is the
model's choice (log entry 5). -/
def Obligations.TurnsSelectTheMovingEngine : Prop :=
  ∀ s : State,
    (s.turns = [] → s.takeTurn = s) ∧
    (∀ ks, s.turns = 0 :: ks → s.takeTurn = { s with turns := ks }) ∧
    (∀ k ks, s.turns = (k + 1) :: ks → s.others.length ≤ k → s.takeTurn = { s with turns := ks }) ∧
    (∀ pre e post ks, s.turns = (pre.length + 1) :: ks → s.others = pre ++ e :: post →
      s.takeTurn = { s with eng := e, others := pre ++ s.eng :: post, turns := ks }) ∧
    (∀ t, step s = .next t →
      t.others = s.takeTurn.others ∧ t.turns = s.turns.tail ∧ t.engines.length = s.engines.length)

/-- The frame of the bus requests INIT, MEASURE, GETBASE, SETBASE, GETBASE2, SETBASE2, MEASRAW, SELFTEST, SETHUM, GETFEAT
and GETSERIAL: each register and port changes only in the phase R62 gives it, or when the operation ends (R74). -/
def Obligations.BusRequestFrame : Prop :=
  ∀ (i : Instr) (op : BusOp) (s t : State), busOp? i = some op → exec i s = .next t →
    t.others = s.others ∧ t.turns = s.turns ∧ t.eng.att = s.eng.att ∧ t.eng.reqs = s.eng.reqs ∧
    (s.eng.phase ≠ .wr → t.eng.writes = s.eng.writes) ∧
    (s.eng.phase ≠ .settle → t.eng.delays = s.eng.delays) ∧
    (s.eng.phase ≠ .rd → t.eng.reads = s.eng.reads) ∧
    (s.eng.phase ≠ .wr → s.eng.phase ≠ .settle → s.eng.phase ≠ .rd →
      t.eng.trace = s.eng.trace ∧ t.draws = s.draws) ∧
    (s.eng.phase ≠ .idle → s.eng.phase ≠ .enc → t.eng.refused = s.eng.refused ∧ t.eng.reasons = s.eng.reasons) ∧
    (s.eng.phase = .idle → t.eng.resps = s.eng.resps ∧ t.eng.tx = s.eng.tx ∧ t.eng.rx = s.eng.rx) ∧
    (s.eng.phase ≠ .idle → t.eng.phase ≠ .idle →
      t.eng.resps = s.eng.resps ∧ t.eng.op = s.eng.op ∧
      (s.eng.phase ≠ .enc → t.eng.tx = s.eng.tx) ∧ (s.eng.phase ≠ .rd → t.eng.rx = s.eng.rx))

/-- The frame of the bus-free requests CRC8, FPENC, ATTACH, RELEASE and the reserved selector: no bus access, no delay, no
answer drawn, no other engine touched; the attachment stays but for ATTACH and RELEASE, and the refusal mark stays but
for those two and the reserved selector. -/
def Obligations.BusFreeRequestFrame : Prop :=
  ∀ (i : Instr) (s t : State), busOp? i = none → exec i s = .next t →
    s.eng.phase = .idle ∧ t.eng.phase = .idle ∧
    t.others = s.others ∧ t.turns = s.turns ∧ t.draws = s.draws ∧
    t.eng.trace = s.eng.trace ∧ t.eng.reqs = s.eng.reqs ∧
    t.eng.writes = s.eng.writes ∧ t.eng.delays = s.eng.delays ∧ t.eng.reads = s.eng.reads ∧
    ((∃ data, i = .crc8 data) ∨ (∃ h, i = .fpenc h) →
      t.eng.att = s.eng.att ∧ t.eng.refused = s.eng.refused ∧ t.eng.reasons = s.eng.reasons) ∧
    (i = .reserved → t.eng.att = s.eng.att ∧ t.eng.resps = s.eng.resps)

/-! ### Invariants and whole-machine statements -/

/-- The reset state of any number of engines is well formed and has no operation on the bus. -/
def Obligations.ResetIsWellFormed : Prop :=
  ∀ n, (State.resetWith n).WellFormed ∧ (State.resetWith n).OneOnBus

/-- R16, R18, R19, R31, R33, R37: every step keeps every engine well formed: the registers hold what the phase says (TX the
frame of the request in progress, RX a frame of its length, valid in DEC, nothing in IDLE), every event is at `P_ADDR` with a
frame of a legal length, and the mark is set exactly when a reason is noted. -/
def Obligations.StepKeepsWellFormed : Prop :=
  ∀ s t : State, s.WellFormed → step s = .next t → t.WellFormed

/-- R120: every step keeps at most one engine's operation on the shared bus, whatever turns are taken. -/
def Obligations.StepKeepsOneOperationOnTheBus : Prop :=
  ∀ s t : State, s.OneOnBus → step s = .next t → t.OneOnBus

/-- From a well-formed state a step stops only on a call that is never answered (R69), or on a request whose operand fields
are not those of R45. -/
def Obligations.WellFormedStatesStopOnlyUnanswered : Prop :=
  ∀ s : State, s.WellFormed →
    (∀ f, step s = .fault f → ∃ c, f = .unanswered c) ∧
    (∀ r, step s = .refused r → ∃ e, r = .operandFields e)

/-- R62, R104: stepping a bus request through its phases gives exactly the events and the response of the transaction as one
function of its answers, and leaves the attachment, the refusal mark and the other engines as they were. -/
def Obligations.PhasesRefineTheTransaction : Prop :=
  ∀ (i : Instr) (op : BusOp) (s : State) (hd : Handle) (w : WriteOutcome) (a : ReadOutcome)
    (ws : List (Reply WriteOutcome)) (ds : List (Reply Unit)) (rs : List (Reply ReadOutcome)),
    busOp? i = some op → s.Ready hd →
    s.eng.writes = .answer w :: ws → s.eng.delays = .answer () :: ds → s.eng.reads = .answer a :: rs →
    (∀ bs, rxLen op ≠ 0 → a = .rOk bs → bs.length = rxLen op) →
    ∃ k t evs resp, k ≤ 7 ∧ execTimes i k s = .next t ∧ transaction op i w a = some (evs, resp) ∧
      t.eng.phase = .idle ∧ t.eng.trace = s.eng.trace ++ evs ∧ t.eng.resps = s.eng.resps ++ [resp] ∧
      t.eng.att = s.eng.att ∧ t.eng.refused = s.eng.refused ∧ t.others = s.others

/-- R124: when every call is answered, every request the port accepts and the spec does not refuse ends in one response
within seven steps of its engine, whatever the answers are and whatever other engines do between those steps, as long as
for a bus request none of them has the bus when it is accepted and when its write comes (R120, log entry 10). The second
clause says it of the machine's own run when no other engine moves (an empty list of turns, log entry 5). -/
def Obligations.AnsweredRequestsEndInOneResponse : Prop :=
  ∀ (e : Engine) (r : Request) (reqs : List Request) (i : Instr) (w : WriteOutcome) (a : ReadOutcome)
    (ws : List (Reply WriteOutcome)) (ds : List (Reply Unit)) (rs : List (Reply ReadOutcome)),
    e.phase = .idle → e.reqs = r :: reqs → decode r = .ok i →
    e.writes = .answer w :: ws → e.delays = .answer () :: ds → e.reads = .answer a :: rs →
    i ≠ .reserved → (∀ hd, i = .attach hd → e.att = .detached) → (i = .release → e.att ≠ .detached) →
    (∀ op, busOp? i = some op → e.att ≠ .detached) →
    (∀ env : Nat → State,
      (∀ op, busOp? i = some op → (env 0).busTaken = false ∧ (env 1).busTaken = false) →
      EndsInOneResponse e reqs (ownSteps env e)) ∧
    (∀ s : State, s.eng = e → s.turns = [] → (∀ op, busOp? i = some op → s.busTaken = false) →
      EndsInOneResponse e reqs (runFrom s))

/-- R5, R102: the block never looks inside a transport error payload or a handle: renaming every payload and every handle
that the engine, its ports and the request hold gives the renamed result, as long as the step's answer is in the script.
The renamings need not keep different tokens different. -/
def Obligations.PayloadsAndHandlesAreOpaque : Prop :=
  ∀ (f : TErr → TErr) (g : Handle → Handle) (i : Instr) (s : State), s.eng.writes ≠ [] → s.eng.reads ≠ [] →
    exec (i.rename g) (s.rename f g) = renameResult f g (exec i s)
end

