-- ==== Sys2Proof/Laws/State.lean ====
section
/-! SUPPORT. Laws/State.lean: one lemma for each field and update of an engine and of the state, each true by unfolding, so
that no later proof unfolds a record update. -/

namespace Sys2Proof.Machine


@[simp] theorem Engine.refuse_att (e : Engine) (r : Reason) : (e.refuse r).att = e.att := rfl
@[simp] theorem Engine.refuse_phase (e : Engine) (r : Reason) : (e.refuse r).phase = e.phase := rfl
@[simp] theorem Engine.refuse_op (e : Engine) (r : Reason) : (e.refuse r).op = e.op := rfl
@[simp] theorem Engine.refuse_tx (e : Engine) (r : Reason) : (e.refuse r).tx = e.tx := rfl
@[simp] theorem Engine.refuse_rx (e : Engine) (r : Reason) : (e.refuse r).rx = e.rx := rfl
@[simp] theorem Engine.refuse_refused (e : Engine) (r : Reason) : (e.refuse r).refused = true := rfl
@[simp] theorem Engine.refuse_reasons (e : Engine) (r : Reason) : (e.refuse r).reasons = e.reasons ++ [r] := rfl
@[simp] theorem Engine.refuse_trace (e : Engine) (r : Reason) : (e.refuse r).trace = e.trace := rfl
@[simp] theorem Engine.refuse_reqs (e : Engine) (r : Reason) : (e.refuse r).reqs = e.reqs := rfl
@[simp] theorem Engine.refuse_resps (e : Engine) (r : Reason) : (e.refuse r).resps = e.resps := rfl
@[simp] theorem Engine.refuse_writes (e : Engine) (r : Reason) : (e.refuse r).writes = e.writes := rfl
@[simp] theorem Engine.refuse_delays (e : Engine) (r : Reason) : (e.refuse r).delays = e.delays := rfl
@[simp] theorem Engine.refuse_reads (e : Engine) (r : Reason) : (e.refuse r).reads = e.reads := rfl

@[simp] theorem Engine.toIdle_att (e : Engine) : (e.toIdle).att = e.att := rfl
@[simp] theorem Engine.toIdle_phase (e : Engine) : (e.toIdle).phase = .idle := rfl
@[simp] theorem Engine.toIdle_op (e : Engine) : (e.toIdle).op = none := rfl
@[simp] theorem Engine.toIdle_tx (e : Engine) : (e.toIdle).tx = none := rfl
@[simp] theorem Engine.toIdle_rx (e : Engine) : (e.toIdle).rx = none := rfl
@[simp] theorem Engine.toIdle_refused (e : Engine) : (e.toIdle).refused = e.refused := rfl
@[simp] theorem Engine.toIdle_reasons (e : Engine) : (e.toIdle).reasons = e.reasons := rfl
@[simp] theorem Engine.toIdle_trace (e : Engine) : (e.toIdle).trace = e.trace := rfl
@[simp] theorem Engine.toIdle_reqs (e : Engine) : (e.toIdle).reqs = e.reqs := rfl
@[simp] theorem Engine.toIdle_resps (e : Engine) : (e.toIdle).resps = e.resps := rfl
@[simp] theorem Engine.toIdle_writes (e : Engine) : (e.toIdle).writes = e.writes := rfl
@[simp] theorem Engine.toIdle_delays (e : Engine) : (e.toIdle).delays = e.delays := rfl
@[simp] theorem Engine.toIdle_reads (e : Engine) : (e.toIdle).reads = e.reads := rfl

@[simp] theorem Engine.finish_att (e : Engine) (r : Response) : (e.finish r).att = e.att := rfl
@[simp] theorem Engine.finish_phase (e : Engine) (r : Response) : (e.finish r).phase = .idle := rfl
@[simp] theorem Engine.finish_op (e : Engine) (r : Response) : (e.finish r).op = none := rfl
@[simp] theorem Engine.finish_tx (e : Engine) (r : Response) : (e.finish r).tx = none := rfl
@[simp] theorem Engine.finish_rx (e : Engine) (r : Response) : (e.finish r).rx = none := rfl
@[simp] theorem Engine.finish_refused (e : Engine) (r : Response) : (e.finish r).refused = e.refused := rfl
@[simp] theorem Engine.finish_reasons (e : Engine) (r : Response) : (e.finish r).reasons = e.reasons := rfl
@[simp] theorem Engine.finish_trace (e : Engine) (r : Response) : (e.finish r).trace = e.trace := rfl
@[simp] theorem Engine.finish_reqs (e : Engine) (r : Response) : (e.finish r).reqs = e.reqs := rfl
@[simp] theorem Engine.finish_resps (e : Engine) (r : Response) : (e.finish r).resps = e.resps ++ [r] := rfl
@[simp] theorem Engine.finish_writes (e : Engine) (r : Response) : (e.finish r).writes = e.writes := rfl
@[simp] theorem Engine.finish_delays (e : Engine) (r : Response) : (e.finish r).delays = e.delays := rfl
@[simp] theorem Engine.finish_reads (e : Engine) (r : Response) : (e.finish r).reads = e.reads := rfl

@[simp] theorem Engine.after_att (e : Engine) (evs : List Event) (r : Response) : (e.after evs r).att = e.att := rfl
@[simp] theorem Engine.after_phase (e : Engine) (evs : List Event) (r : Response) : (e.after evs r).phase = .idle := rfl
@[simp] theorem Engine.after_op (e : Engine) (evs : List Event) (r : Response) : (e.after evs r).op = none := rfl
@[simp] theorem Engine.after_tx (e : Engine) (evs : List Event) (r : Response) : (e.after evs r).tx = none := rfl
@[simp] theorem Engine.after_rx (e : Engine) (evs : List Event) (r : Response) : (e.after evs r).rx = none := rfl
@[simp] theorem Engine.after_refused (e : Engine) (evs : List Event) (r : Response) : (e.after evs r).refused = e.refused := rfl
@[simp] theorem Engine.after_reasons (e : Engine) (evs : List Event) (r : Response) : (e.after evs r).reasons = e.reasons := rfl
@[simp] theorem Engine.after_trace (e : Engine) (evs : List Event) (r : Response) : (e.after evs r).trace = e.trace ++ evs := rfl
@[simp] theorem Engine.after_reqs (e : Engine) (evs : List Event) (r : Response) : (e.after evs r).reqs = e.reqs := rfl
@[simp] theorem Engine.after_resps (e : Engine) (evs : List Event) (r : Response) : (e.after evs r).resps = e.resps ++ [r] := rfl
@[simp] theorem Engine.after_writes (e : Engine) (evs : List Event) (r : Response) : (e.after evs r).writes = e.writes := rfl
@[simp] theorem Engine.after_delays (e : Engine) (evs : List Event) (r : Response) : (e.after evs r).delays = e.delays := rfl
@[simp] theorem Engine.after_reads (e : Engine) (evs : List Event) (r : Response) : (e.after evs r).reads = e.reads := rfl

@[simp] theorem State.withEng_eng (s : State) (e : Engine) : (s.withEng e).eng = e := rfl
@[simp] theorem State.withEng_others (s : State) (e : Engine) : (s.withEng e).others = s.others := rfl
@[simp] theorem State.withEng_turns (s : State) (e : Engine) : (s.withEng e).turns = s.turns := rfl
@[simp] theorem State.withEng_draws (s : State) (e : Engine) : (s.withEng e).draws = s.draws := rfl
@[simp] theorem State.withEng_withEng (s : State) (e e' : Engine) : (s.withEng e).withEng e' = s.withEng e' := rfl

@[simp] theorem State.afterWrite_others (s : State) (bs : Frame) (o : WriteOutcome) : (s.afterWrite bs o).others = s.others := rfl
@[simp] theorem State.afterWrite_turns (s : State) (bs : Frame) (o : WriteOutcome) : (s.afterWrite bs o).turns = s.turns := rfl
@[simp] theorem State.afterWrite_draws (s : State) (bs : Frame) (o : WriteOutcome) : (s.afterWrite bs o).draws = s.draws + 1 := rfl
@[simp] theorem State.afterWrite_eng_att (s : State) (bs : Frame) (o : WriteOutcome) : (s.afterWrite bs o).eng.att = s.eng.att := rfl
@[simp] theorem State.afterWrite_eng_phase (s : State) (bs : Frame) (o : WriteOutcome) : (s.afterWrite bs o).eng.phase = s.eng.phase := rfl
@[simp] theorem State.afterWrite_eng_op (s : State) (bs : Frame) (o : WriteOutcome) : (s.afterWrite bs o).eng.op = s.eng.op := rfl
@[simp] theorem State.afterWrite_eng_tx (s : State) (bs : Frame) (o : WriteOutcome) : (s.afterWrite bs o).eng.tx = s.eng.tx := rfl
@[simp] theorem State.afterWrite_eng_rx (s : State) (bs : Frame) (o : WriteOutcome) : (s.afterWrite bs o).eng.rx = s.eng.rx := rfl
@[simp] theorem State.afterWrite_eng_refused (s : State) (bs : Frame) (o : WriteOutcome) : (s.afterWrite bs o).eng.refused = s.eng.refused := rfl
@[simp] theorem State.afterWrite_eng_reasons (s : State) (bs : Frame) (o : WriteOutcome) : (s.afterWrite bs o).eng.reasons = s.eng.reasons := rfl
@[simp] theorem State.afterWrite_eng_trace (s : State) (bs : Frame) (o : WriteOutcome) : (s.afterWrite bs o).eng.trace = s.eng.trace ++ [.evWrite Config.pAddr bs o] := rfl
@[simp] theorem State.afterWrite_eng_reqs (s : State) (bs : Frame) (o : WriteOutcome) : (s.afterWrite bs o).eng.reqs = s.eng.reqs := rfl
@[simp] theorem State.afterWrite_eng_resps (s : State) (bs : Frame) (o : WriteOutcome) : (s.afterWrite bs o).eng.resps = s.eng.resps := rfl
@[simp] theorem State.afterWrite_eng_writes (s : State) (bs : Frame) (o : WriteOutcome) : (s.afterWrite bs o).eng.writes = s.eng.writes.tail := rfl
@[simp] theorem State.afterWrite_eng_delays (s : State) (bs : Frame) (o : WriteOutcome) : (s.afterWrite bs o).eng.delays = s.eng.delays := rfl
@[simp] theorem State.afterWrite_eng_reads (s : State) (bs : Frame) (o : WriteOutcome) : (s.afterWrite bs o).eng.reads = s.eng.reads := rfl

@[simp] theorem State.afterDelay_others (s : State) (d : Delay) : (s.afterDelay d).others = s.others := rfl
@[simp] theorem State.afterDelay_turns (s : State) (d : Delay) : (s.afterDelay d).turns = s.turns := rfl
@[simp] theorem State.afterDelay_draws (s : State) (d : Delay) : (s.afterDelay d).draws = s.draws + 1 := rfl
@[simp] theorem State.afterDelay_eng_att (s : State) (d : Delay) : (s.afterDelay d).eng.att = s.eng.att := rfl
@[simp] theorem State.afterDelay_eng_phase (s : State) (d : Delay) : (s.afterDelay d).eng.phase = s.eng.phase := rfl
@[simp] theorem State.afterDelay_eng_op (s : State) (d : Delay) : (s.afterDelay d).eng.op = s.eng.op := rfl
@[simp] theorem State.afterDelay_eng_tx (s : State) (d : Delay) : (s.afterDelay d).eng.tx = s.eng.tx := rfl
@[simp] theorem State.afterDelay_eng_rx (s : State) (d : Delay) : (s.afterDelay d).eng.rx = s.eng.rx := rfl
@[simp] theorem State.afterDelay_eng_refused (s : State) (d : Delay) : (s.afterDelay d).eng.refused = s.eng.refused := rfl
@[simp] theorem State.afterDelay_eng_reasons (s : State) (d : Delay) : (s.afterDelay d).eng.reasons = s.eng.reasons := rfl
@[simp] theorem State.afterDelay_eng_trace (s : State) (d : Delay) : (s.afterDelay d).eng.trace = s.eng.trace ++ [delayEvent d] := rfl
@[simp] theorem State.afterDelay_eng_reqs (s : State) (d : Delay) : (s.afterDelay d).eng.reqs = s.eng.reqs := rfl
@[simp] theorem State.afterDelay_eng_resps (s : State) (d : Delay) : (s.afterDelay d).eng.resps = s.eng.resps := rfl
@[simp] theorem State.afterDelay_eng_writes (s : State) (d : Delay) : (s.afterDelay d).eng.writes = s.eng.writes := rfl
@[simp] theorem State.afterDelay_eng_delays (s : State) (d : Delay) : (s.afterDelay d).eng.delays = s.eng.delays.tail := rfl
@[simp] theorem State.afterDelay_eng_reads (s : State) (d : Delay) : (s.afterDelay d).eng.reads = s.eng.reads := rfl

@[simp] theorem State.afterRead_others (s : State) (n : Nat) (o : ReadOutcome) : (s.afterRead n o).others = s.others := rfl
@[simp] theorem State.afterRead_turns (s : State) (n : Nat) (o : ReadOutcome) : (s.afterRead n o).turns = s.turns := rfl
@[simp] theorem State.afterRead_draws (s : State) (n : Nat) (o : ReadOutcome) : (s.afterRead n o).draws = s.draws + 1 := rfl
@[simp] theorem State.afterRead_eng_att (s : State) (n : Nat) (o : ReadOutcome) : (s.afterRead n o).eng.att = s.eng.att := rfl
@[simp] theorem State.afterRead_eng_phase (s : State) (n : Nat) (o : ReadOutcome) : (s.afterRead n o).eng.phase = s.eng.phase := rfl
@[simp] theorem State.afterRead_eng_op (s : State) (n : Nat) (o : ReadOutcome) : (s.afterRead n o).eng.op = s.eng.op := rfl
@[simp] theorem State.afterRead_eng_tx (s : State) (n : Nat) (o : ReadOutcome) : (s.afterRead n o).eng.tx = s.eng.tx := rfl
@[simp] theorem State.afterRead_eng_rx (s : State) (n : Nat) (o : ReadOutcome) : (s.afterRead n o).eng.rx = s.eng.rx := rfl
@[simp] theorem State.afterRead_eng_refused (s : State) (n : Nat) (o : ReadOutcome) : (s.afterRead n o).eng.refused = s.eng.refused := rfl
@[simp] theorem State.afterRead_eng_reasons (s : State) (n : Nat) (o : ReadOutcome) : (s.afterRead n o).eng.reasons = s.eng.reasons := rfl
@[simp] theorem State.afterRead_eng_trace (s : State) (n : Nat) (o : ReadOutcome) : (s.afterRead n o).eng.trace = s.eng.trace ++ [.evRead Config.pAddr n o] := rfl
@[simp] theorem State.afterRead_eng_reqs (s : State) (n : Nat) (o : ReadOutcome) : (s.afterRead n o).eng.reqs = s.eng.reqs := rfl
@[simp] theorem State.afterRead_eng_resps (s : State) (n : Nat) (o : ReadOutcome) : (s.afterRead n o).eng.resps = s.eng.resps := rfl
@[simp] theorem State.afterRead_eng_writes (s : State) (n : Nat) (o : ReadOutcome) : (s.afterRead n o).eng.writes = s.eng.writes := rfl
@[simp] theorem State.afterRead_eng_delays (s : State) (n : Nat) (o : ReadOutcome) : (s.afterRead n o).eng.delays = s.eng.delays := rfl
@[simp] theorem State.afterRead_eng_reads (s : State) (n : Nat) (o : ReadOutcome) : (s.afterRead n o).eng.reads = s.eng.reads.tail := rfl

@[simp] theorem State.popRequest_others (s : State) : (s.popRequest).others = s.others := rfl
@[simp] theorem State.popRequest_turns (s : State) : (s.popRequest).turns = s.turns := rfl
@[simp] theorem State.popRequest_draws (s : State) : (s.popRequest).draws = s.draws := rfl
@[simp] theorem State.popRequest_eng_att (s : State) : (s.popRequest).eng.att = s.eng.att := rfl
@[simp] theorem State.popRequest_eng_phase (s : State) : (s.popRequest).eng.phase = s.eng.phase := rfl
@[simp] theorem State.popRequest_eng_op (s : State) : (s.popRequest).eng.op = s.eng.op := rfl
@[simp] theorem State.popRequest_eng_tx (s : State) : (s.popRequest).eng.tx = s.eng.tx := rfl
@[simp] theorem State.popRequest_eng_rx (s : State) : (s.popRequest).eng.rx = s.eng.rx := rfl
@[simp] theorem State.popRequest_eng_refused (s : State) : (s.popRequest).eng.refused = s.eng.refused := rfl
@[simp] theorem State.popRequest_eng_reasons (s : State) : (s.popRequest).eng.reasons = s.eng.reasons := rfl
@[simp] theorem State.popRequest_eng_trace (s : State) : (s.popRequest).eng.trace = s.eng.trace := rfl
@[simp] theorem State.popRequest_eng_reqs (s : State) : (s.popRequest).eng.reqs = s.eng.reqs.tail := rfl
@[simp] theorem State.popRequest_eng_resps (s : State) : (s.popRequest).eng.resps = s.eng.resps := rfl
@[simp] theorem State.popRequest_eng_writes (s : State) : (s.popRequest).eng.writes = s.eng.writes := rfl
@[simp] theorem State.popRequest_eng_delays (s : State) : (s.popRequest).eng.delays = s.eng.delays := rfl
@[simp] theorem State.popRequest_eng_reads (s : State) : (s.popRequest).eng.reads = s.eng.reads := rfl

@[simp] theorem State.present_others (s : State) (r : Request) : (s.present r).others = s.others := rfl
@[simp] theorem State.present_turns (s : State) (r : Request) : (s.present r).turns = 0 :: s.turns := rfl
@[simp] theorem State.present_draws (s : State) (r : Request) : (s.present r).draws = s.draws := rfl
@[simp] theorem State.present_eng_att (s : State) (r : Request) : (s.present r).eng.att = s.eng.att := rfl
@[simp] theorem State.present_eng_phase (s : State) (r : Request) : (s.present r).eng.phase = .idle := rfl
@[simp] theorem State.present_eng_op (s : State) (r : Request) : (s.present r).eng.op = none := rfl
@[simp] theorem State.present_eng_tx (s : State) (r : Request) : (s.present r).eng.tx = none := rfl
@[simp] theorem State.present_eng_rx (s : State) (r : Request) : (s.present r).eng.rx = none := rfl
@[simp] theorem State.present_eng_refused (s : State) (r : Request) : (s.present r).eng.refused = s.eng.refused := rfl
@[simp] theorem State.present_eng_reasons (s : State) (r : Request) : (s.present r).eng.reasons = s.eng.reasons := rfl
@[simp] theorem State.present_eng_trace (s : State) (r : Request) : (s.present r).eng.trace = s.eng.trace := rfl
@[simp] theorem State.present_eng_reqs (s : State) (r : Request) : (s.present r).eng.reqs = r :: s.eng.reqs := rfl
@[simp] theorem State.present_eng_resps (s : State) (r : Request) : (s.present r).eng.resps = s.eng.resps := rfl
@[simp] theorem State.present_eng_writes (s : State) (r : Request) : (s.present r).eng.writes = s.eng.writes := rfl
@[simp] theorem State.present_eng_delays (s : State) (r : Request) : (s.present r).eng.delays = s.eng.delays := rfl
@[simp] theorem State.present_eng_reads (s : State) (r : Request) : (s.present r).eng.reads = s.eng.reads := rfl

/-! ### Reset -/

@[simp] theorem State.resetWith_eng (n : Nat) : (State.resetWith n).eng = {} := rfl
@[simp] theorem State.resetWith_others (n : Nat) : (State.resetWith n).others = List.replicate n {} := rfl
@[simp] theorem State.resetWith_turns (n : Nat) : (State.resetWith n).turns = [] := rfl
@[simp] theorem State.resetWith_draws (n : Nat) : (State.resetWith n).draws = 0 := rfl

/-- After reset every engine is the reset engine. -/
theorem State.engine_of_resetWith {n : Nat} {e : Engine} (h : e ∈ (State.resetWith n).engines) : e = {} := by
  simp only [State.engines, resetWith_eng, resetWith_others, List.mem_cons, List.mem_replicate] at h
  exact h.elim id And.right

/-! ### Own steps (R124) -/

@[simp] theorem ownSteps_zero (env : Nat → State) (e : Engine) : ownSteps env e 0 = .next { env 0 with eng := e } := rfl

theorem ownSteps_succ (env : Nat → State) (e : Engine) (k : Nat) : ownSteps env e (k + 1) =
    match ownSteps env e k with
    | .next t => step { env k with eng := t.eng, turns := 0 :: (env k).turns }
    | .fault f => .fault f
    | .refused r => .refused r := rfl

/-! ### Renaming (R5, R102) -/

@[simp] theorem State.rename_eng (f : TErr → TErr) (g : Handle → Handle) (s : State) : (s.rename f g).eng = s.eng.rename f g := rfl
@[simp] theorem State.rename_draws (f : TErr → TErr) (g : Handle → Handle) (s : State) : (s.rename f g).draws = s.draws := rfl
@[simp] theorem State.rename_busTaken (f : TErr → TErr) (g : Handle → Handle) (s : State) :
    (s.rename f g).busTaken = s.busTaken := rfl

/-- A bus request holds no handle. -/
theorem Instr.rename_of_bus {i : Instr} {op : BusOp} (g : Handle → Handle) (h : busOp? i = some op) : i.rename g = i := by
  cases i <;> first | rfl | simp [busOp?] at h

/-- The request in progress is a given bus request exactly when it is after the renaming. -/
theorem Instr.rename_eq_bus {i j : Instr} {op : BusOp} (g : Handle → Handle) (h : busOp? i = some op) :
    j.rename g = i ↔ j = i := by
  cases j <;> cases i <;> simp_all [Sys2Proof.Instr.rename, busOp?]

/-! ### The shared bus -/

@[simp] theorem State.busTaken_withEng (s : State) (e : Engine) : (s.withEng e).busTaken = s.busTaken := rfl

theorem Engine.onBus_eq_false {e : Engine} (h : e.phase = .idle) : e.onBus = false := by
  simp [Engine.onBus, h]

/-! ### Turns: a permutation of the engines -/

@[simp] theorem State.focus_draws (s : State) (k : Nat) : (s.focus k).draws = s.draws := by
  cases k with
  | zero => rfl
  | succ k => simp only [State.focus]; split <;> rfl

theorem State.focus_engines_perm (s : State) (k : Nat) : (s.focus k).engines.Perm s.engines := by
  cases k with
  | zero => exact List.Perm.refl _
  | succ k =>
    simp only [State.focus]
    split
    · exact List.Perm.refl _
    · rename_i e he
      obtain ⟨hk, rfl⟩ := List.getElem?_eq_some_iff.mp he
      have hset := List.set_eq_take_append_cons_drop (l := s.others) (i := k) (a := s.eng)
      rw [if_pos hk] at hset
      have hall : s.others = s.others.take k ++ s.others[k] :: s.others.drop (k + 1) := by
        rw [List.getElem_cons_drop, List.take_append_drop]
      unfold State.engines
      simp only
      rw [hset]
      conv_rhs => rw [hall]
      have h1 := (List.perm_middle (a := s.eng) (l₁ := s.others.take k) (l₂ := s.others.drop (k + 1))).cons s.others[k]
      have h2 := (List.perm_middle (a := s.others[k]) (l₁ := s.others.take k) (l₂ := s.others.drop (k + 1))).cons s.eng
      exact h1.trans ((List.Perm.swap _ _ _).trans h2.symm)

theorem State.takeTurn_engines_perm (s : State) : s.takeTurn.engines.Perm s.engines := by
  unfold State.takeTurn
  split
  · exact List.Perm.refl _
  · exact s.focus_engines_perm _

theorem State.takeTurn_of_nil {s : State} (h : s.turns = []) : s.takeTurn = s := by
  simp [State.takeTurn, h]

@[simp] theorem State.takeTurn_draws (s : State) : s.takeTurn.draws = s.draws := by
  unfold State.takeTurn
  split <;> simp

end Sys2Proof.Machine
end

