-- ==== Sys2Proof/Laws/Ops.lean ====
section
/-! SUPPORT. Laws/Ops.lean: for each shared operation one lemma that says everything it can do when it answers a next state,
and for `exec` the list of all moves a request can make. A proof over all requests cites `exec_next` and takes the moves apart. -/

namespace Sys2Proof.Machine

/-! ### Ending and refusing -/

theorem refuse_next {r : Reason} {s t : State} (h : refuse r s = .next t) : t = s.withEng (s.eng.refuse r) := by
  cases h; rfl

theorem complete_next {v : Value} {s t : State} (h : complete v s = .next t) :
    t = s.withEng (s.eng.finish (.ok v)) := by
  cases h; rfl

theorem raise_next {k : ErrKind} {s t : State} (h : raise k s = .next t) :
    t = s.withEng (s.eng.finish (.err k)) := by
  cases h; rfl

theorem refuseInEnc_next {r : Reason} {s t : State} (h : refuseInEnc r s = .next t) :
    t = s.withEng (s.eng.refuse r).toIdle := by
  cases h; rfl

/-! ### Transport and timer calls -/

theorem fitFrame_length (pad : Nat → Byte) (n : Nat) : ∀ (k : Nat) (bs : Frame), (fitFrame pad n k bs).length = n := by
  induction n with
  | zero => intro k bs; rfl
  | succ n ih => intro k bs; cases bs <;> simp [fitFrame, ih]

/-- A frame of the right length is delivered as it stands. -/
theorem fitFrame_self (pad : Nat → Byte) (bs : Frame) : ∀ k, fitFrame pad bs.length k bs = bs := by
  induction bs with
  | nil => intro k; rfl
  | cons b bs ih => intro k; simp [fitFrame, ih]

theorem fitReply_rOk {pad : Nat → Byte} {n : Nat} {r : Reply ReadOutcome} {bs : Frame}
    (h : fitReply pad n r = .answer (.rOk bs)) : bs.length = n := by
  unfold fitReply at h
  split at h
  · cases h; exact fitFrame_length _ _ _ _
  · cases h
  · cases h

theorem readReply_rOk {s : State} {hd : Handle} {n : Nat} {bs : Frame} (h : s.readReply hd n = .answer (.rOk bs)) :
    bs.length = n := by
  unfold State.readReply at h
  split at h <;> exact fitReply_rOk h

theorem busWrite_next {bs : Frame} {k : WriteOutcome → State → Result} {s t : State} (h : busWrite bs k s = .next t) :
    ∃ hd o, s.eng.att = .attached hd ∧ s.writeReply hd = .answer o ∧ k o (s.afterWrite bs o) = .next t := by
  unfold busWrite at h
  split at h
  · cases h
  · split at h
    · cases h
    · exact ⟨_, _, ‹_›, ‹_›, h⟩

theorem delayFor_next {d : Delay} {k : State → Result} {s t : State} (h : delayFor d k s = .next t) :
    s.delayReply = .answer () ∧ k (s.afterDelay d) = .next t := by
  unfold delayFor at h
  split at h
  · cases h
  · exact ⟨‹_›, h⟩

theorem busRead_next {n : Nat} {k : ReadOutcome → State → Result} {s t : State} (h : busRead n k s = .next t) :
    ∃ hd o, s.eng.att = .attached hd ∧ s.readReply hd n = .answer o ∧ k o (s.afterRead n o) = .next t := by
  unfold busRead at h
  split at h
  · cases h
  · split at h
    · cases h
    · exact ⟨_, _, ‹_›, ‹_›, h⟩

/-! ### Guards -/

theorem inProgress_next {r : Instr} {k : State → Result} {s t : State} (h : inProgress r k s = .next t) :
    s.eng.op = some r ∧ k s = .next t := by
  unfold inProgress at h
  split at h
  · exact ⟨‹_›, h⟩
  · cases h

theorem inProgress_self {r : Instr} {k : State → Result} {s : State} (h : s.eng.op = some r) :
    inProgress r k s = k s := by
  simp [inProgress, h]

theorem whenIdle_next {k : State → Result} {s t : State} (h : whenIdle k s = .next t) :
    s.eng.phase = .idle ∧ k s = .next t := by
  unfold whenIdle at h
  split at h
  · exact ⟨‹_›, h⟩
  · cases h

theorem whenIdle_idle {k : State → Result} {s : State} (h : s.eng.phase = .idle) : whenIdle k s = k s := by
  simp [whenIdle, h]

/-! ### Every move of a bus request -/

/-- Everything a step of the bus request `r` of operation `op` can do when it answers a next state (R62, R63). -/
inductive BusMove (op : BusOp) (r : Instr) (s t : State) : Prop where
  /-- IDLE, detached (R78). -/
  | notAttached (hp : s.eng.phase = .idle) (ha : s.eng.att = .detached)
      (ht : t = s.withEng (s.eng.refuse .notAttached))
  /-- IDLE, another engine's operation has the bus (R120). -/
  | overlap (hd : Handle) (hp : s.eng.phase = .idle) (ha : s.eng.att = .attached hd) (hb : s.busTaken = true)
      (ht : t = s.withEng (s.eng.refuse .sharedBusOverlap))
  /-- IDLE to ENC (R60, R62). -/
  | accepted (hd : Handle) (hp : s.eng.phase = .idle) (ha : s.eng.att = .attached hd) (hb : s.busTaken = false)
      (ht : t = s.withEng { s.eng with phase := .enc, op := some r })
  /-- ENC, the range error (R64). -/
  | encRaised (k : ErrKind) (hp : s.eng.phase = .enc) (ho : s.eng.op = some r) (he : encodeTx op r = .error k)
      (ht : t = s.withEng (s.eng.finish (.err k)))
  /-- ENC, another engine's operation has the bus by now (R120). -/
  | encOverlap (f : Frame) (hp : s.eng.phase = .enc) (ho : s.eng.op = some r) (he : encodeTx op r = .ok f)
      (hb : s.busTaken = true) (ht : t = s.withEng (s.eng.refuse .sharedBusOverlap).toIdle)
  /-- ENC to WR (R62, R64). -/
  | encoded (f : Frame) (hp : s.eng.phase = .enc) (ho : s.eng.op = some r) (he : encodeTx op r = .ok f)
      (hb : s.busTaken = false) (ht : t = s.withEng { s.eng with phase := .wr, tx := some f })
  /-- WR, the write failed (R70). -/
  | writeFailed (hd : Handle) (f : Frame) (e : TErr) (hp : s.eng.phase = .wr) (ho : s.eng.op = some r)
      (ha : s.eng.att = .attached hd) (hx : s.eng.tx = some f) (hr : s.writeReply hd = .answer (.wErr e))
      (ht : t = (s.afterWrite f (.wErr e)).withEng ((s.afterWrite f (.wErr e)).eng.finish (.err (.transport e))))
  /-- WR to SETTLE (R62). -/
  | wrote (hd : Handle) (f : Frame) (hp : s.eng.phase = .wr) (ho : s.eng.op = some r)
      (ha : s.eng.att = .attached hd) (hx : s.eng.tx = some f) (hr : s.writeReply hd = .answer .wOk)
      (ht : t = (s.afterWrite f .wOk).withEng { (s.afterWrite f .wOk).eng with phase := .settle })
  /-- SETTLE, no read: the response (R62, R67). -/
  | settledDone (hp : s.eng.phase = .settle) (ho : s.eng.op = some r) (hn : rxLen op = 0)
      (hr : s.delayReply = .answer ())
      (ht : t = (s.afterDelay (settleDelay op)).withEng ((s.afterDelay (settleDelay op)).eng.finish (.ok .unit)))
  /-- SETTLE to RD (R62, R67). -/
  | settled (hp : s.eng.phase = .settle) (ho : s.eng.op = some r) (hn : rxLen op ≠ 0)
      (hr : s.delayReply = .answer ())
      (ht : t = (s.afterDelay (settleDelay op)).withEng
        { (s.afterDelay (settleDelay op)).eng with phase := .rd })
  /-- RD, the read failed (R71). -/
  | readFailed (hd : Handle) (e : TErr) (hp : s.eng.phase = .rd) (ho : s.eng.op = some r) (hn : rxLen op ≠ 0)
      (ha : s.eng.att = .attached hd) (hr : s.readReply hd (rxLen op) = .answer (.rErr e))
      (ht : t = (s.afterRead (rxLen op) (.rErr e)).withEng
        ((s.afterRead (rxLen op) (.rErr e)).eng.finish (.err (.transport e))))
  /-- RD to CHK (R62). -/
  | readDone (hd : Handle) (bs : Frame) (hp : s.eng.phase = .rd) (ho : s.eng.op = some r) (hn : rxLen op ≠ 0)
      (ha : s.eng.att = .attached hd) (hr : s.readReply hd (rxLen op) = .answer (.rOk bs))
      (ht : t = (s.afterRead (rxLen op) (.rOk bs)).withEng
        { (s.afterRead (rxLen op) (.rOk bs)).eng with phase := .chk, rx := some bs })
  /-- CHK, a bad triplet (R72). -/
  | checkFailed (f : Frame) (hp : s.eng.phase = .chk) (ho : s.eng.op = some r) (hn : rxLen op ≠ 0)
      (hx : s.eng.rx = some f) (hv : frameValid f = false)
      (ht : t = s.withEng (s.eng.finish (.err .checksumMismatch)))
  /-- CHK to DEC (R62). -/
  | checked (f : Frame) (hp : s.eng.phase = .chk) (ho : s.eng.op = some r) (hn : rxLen op ≠ 0)
      (hx : s.eng.rx = some f) (hv : frameValid f = true) (ht : t = s.withEng { s.eng with phase := .dec })
  /-- DEC, the response (R62). -/
  | decoded (f : Frame) (v : Value) (hp : s.eng.phase = .dec) (ho : s.eng.op = some r) (hn : rxLen op ≠ 0)
      (hx : s.eng.rx = some f) (hv : decodeRx op f = some v) (ht : t = s.withEng (s.eng.finish (.ok v)))

theorem acceptBus_next {op : BusOp} {r : Instr} {s t : State} (hp : s.eng.phase = .idle)
    (h : acceptBus r s = .next t) : BusMove op r s t := by
  unfold acceptBus at h
  split at h
  · exact .notAttached hp ‹_› (refuse_next h)
  · split at h
    · exact .overlap _ hp ‹_› ‹_› (refuse_next h)
    · rename_i hb; cases h; exact .accepted _ hp ‹_› (by simpa using hb) rfl

theorem encPhase_next {op : BusOp} {r : Instr} {s t : State} (hp : s.eng.phase = .enc)
    (h : inProgress r (encPhase op r) s = .next t) : BusMove op r s t := by
  obtain ⟨ho, h⟩ := inProgress_next h
  unfold encPhase at h
  split at h
  · exact .encRaised _ hp ho ‹_› (raise_next h)
  · split at h
    · exact .encOverlap _ hp ho ‹_› ‹_› (refuseInEnc_next h)
    · rename_i hb; cases h; exact .encoded _ hp ho ‹_› (by simpa using hb) rfl

theorem wrPhase_next {op : BusOp} {r : Instr} {s t : State} (hp : s.eng.phase = .wr)
    (h : inProgress r wrPhase s = .next t) : BusMove op r s t := by
  obtain ⟨ho, h⟩ := inProgress_next h
  unfold wrPhase at h
  split at h
  · cases h
  · obtain ⟨hd, o, ha, hr, h⟩ := busWrite_next h
    cases o with
    | wErr e => exact .writeFailed hd _ e hp ho ha ‹_› hr (raise_next h)
    | wOk => cases h; exact .wrote hd _ hp ho ha ‹_› hr rfl

theorem settleThenReturn_next {op : BusOp} {r : Instr} {s t : State} (hp : s.eng.phase = .settle) (hn : rxLen op = 0)
    (h : inProgress r (settleThenReturn op) s = .next t) : BusMove op r s t := by
  obtain ⟨ho, h⟩ := inProgress_next h
  obtain ⟨hr, h⟩ := delayFor_next h
  exact .settledDone hp ho hn hr (complete_next h)

theorem settleThenRead_next {op : BusOp} {r : Instr} {s t : State} (hp : s.eng.phase = .settle) (hn : rxLen op ≠ 0)
    (h : inProgress r (settleThenRead op) s = .next t) : BusMove op r s t := by
  obtain ⟨ho, h⟩ := inProgress_next h
  obtain ⟨hr, h⟩ := delayFor_next h
  cases h; exact .settled hp ho hn hr rfl

theorem rdPhase_next {op : BusOp} {r : Instr} {s t : State} (hp : s.eng.phase = .rd) (hn : rxLen op ≠ 0)
    (h : inProgress r (rdPhase op) s = .next t) : BusMove op r s t := by
  obtain ⟨ho, h⟩ := inProgress_next h
  obtain ⟨hd, o, ha, hr, h⟩ := busRead_next h
  cases o with
  | rErr e => exact .readFailed hd e hp ho hn ha hr (raise_next h)
  | rOk bs => cases h; exact .readDone hd bs hp ho hn ha hr rfl

theorem chkPhase_next {op : BusOp} {r : Instr} {s t : State} (hp : s.eng.phase = .chk) (hn : rxLen op ≠ 0)
    (h : inProgress r chkPhase s = .next t) : BusMove op r s t := by
  obtain ⟨ho, h⟩ := inProgress_next h
  unfold chkPhase at h
  split at h
  · cases h
  · split at h
    · cases h; exact .checked _ hp ho hn ‹_› ‹_› rfl
    · rename_i hv; exact .checkFailed _ hp ho hn ‹_› (by simpa using hv) (raise_next h)

theorem decPhase_next {op : BusOp} {r : Instr} {s t : State} (hp : s.eng.phase = .dec) (hn : rxLen op ≠ 0)
    (h : inProgress r (decPhase (decodeRx op)) s = .next t) : BusMove op r s t := by
  obtain ⟨ho, h⟩ := inProgress_next h
  unfold decPhase at h
  split at h
  · cases h
  · split at h
    · cases h
    · exact .decoded _ _ hp ho hn ‹_› ‹_› (complete_next h)

theorem runWriteOnly_next {op : BusOp} {r : Instr} {s t : State} (hn : rxLen op = 0)
    (h : runWriteOnly op r s = .next t) : BusMove op r s t := by
  unfold runWriteOnly at h
  split at h
  · exact acceptBus_next ‹_› h
  · exact encPhase_next ‹_› h
  · exact wrPhase_next ‹_› h
  · exact settleThenReturn_next ‹_› hn h
  · cases (inProgress_next h).2
  · cases (inProgress_next h).2
  · cases (inProgress_next h).2

theorem runReading_next {op : BusOp} {r : Instr} {s t : State} (hn : rxLen op ≠ 0)
    (h : runReading op r (decodeRx op) s = .next t) : BusMove op r s t := by
  unfold runReading at h
  split at h
  · exact acceptBus_next ‹_› h
  · exact encPhase_next ‹_› h
  · exact wrPhase_next ‹_› h
  · exact settleThenRead_next ‹_› hn h
  · exact rdPhase_next ‹_› hn h
  · exact chkPhase_next ‹_› hn h
  · exact decPhase_next ‹_› hn h

/-! ### Every move of a bus-free request -/

/-- Everything a bus-free request can do when it answers a next state (R55, R76, R77, R78, R100, R101). -/
inductive FreeMove (i : Instr) (s t : State) : Prop where
  /-- CRC8 (R100). -/
  | crc (data : List Byte) (hi : i = .crc8 data) (ht : t = s.withEng (s.eng.finish (.ok (.byte (crc8 data)))))
  /-- FPENC of an encodable value (R101). -/
  | fpOk (h : Humidity) (q : Word) (hi : i = .fpenc h) (hq : fpenc h = .ok q)
      (ht : t = s.withEng (s.eng.finish (.ok (.word q))))
  /-- FPENC out of range (R101). -/
  | fpErr (h : Humidity) (k : ErrKind) (hi : i = .fpenc h) (hq : fpenc h = .error k)
      (ht : t = s.withEng (s.eng.finish (.err k)))
  /-- ATTACH (R76). -/
  | attached (hd : Handle) (hi : i = .attach hd) (ha : s.eng.att = .detached)
      (ht : t = s.withEng ({ s.eng with att := .attached hd }.finish (.ok .unit)))
  /-- RELEASE (R77). -/
  | released (hd : Handle) (hi : i = .release) (ha : s.eng.att = .attached hd)
      (ht : t = s.withEng ({ s.eng with att := .detached }.finish (.ok (.handle hd))))
  /-- The reserved selector and lifecycle misuse (R55, R78). -/
  | refused (r : Reason) (hi : (i = .reserved ∧ r = .reservedSelector) ∨
        ((∃ hd, i = .attach hd) ∧ r = .alreadyAttached ∧ s.eng.att ≠ .detached) ∨
        (i = .release ∧ r = .notAttached ∧ s.eng.att = .detached))
      (ht : t = s.withEng (s.eng.refuse r))

/-- Everything a request can do: `exec` answers a next state only by one of these moves. -/
theorem exec_next {i : Instr} {s t : State} (h : exec i s = .next t) :
    (∃ op, busOp? i = some op ∧ BusMove op i s t) ∨
    (busOp? i = none ∧ s.eng.phase = .idle ∧ FreeMove i s t) := by
  cases i with
  | init => exact .inl ⟨.init, rfl, runWriteOnly_next rfl h⟩
  | setbase a b => exact .inl ⟨.setbase, rfl, runWriteOnly_next rfl h⟩
  | setbase2 w => exact .inl ⟨.setbase2, rfl, runWriteOnly_next rfl h⟩
  | sethum q => exact .inl ⟨.sethum, rfl, runWriteOnly_next rfl h⟩
  | measure => exact .inl ⟨.measure, rfl, runReading_next (by decide) h⟩
  | getbase => exact .inl ⟨.getbase, rfl, runReading_next (by decide) h⟩
  | getbase2 => exact .inl ⟨.getbase2, rfl, runReading_next (by decide) h⟩
  | measraw => exact .inl ⟨.measraw, rfl, runReading_next (by decide) h⟩
  | selftest => exact .inl ⟨.selftest, rfl, runReading_next (by decide) h⟩
  | getfeat => exact .inl ⟨.getfeat, rfl, runReading_next (by decide) h⟩
  | getserial => exact .inl ⟨.getserial, rfl, runReading_next (by decide) h⟩
  | crc8 data =>
    unfold exec execCrc8 at h
    obtain ⟨hp, h⟩ := whenIdle_next h
    exact .inr ⟨rfl, hp, .crc data rfl (complete_next h)⟩
  | fpenc q =>
    unfold exec execFpenc at h
    obtain ⟨hp, h⟩ := whenIdle_next h
    split at h
    · exact .inr ⟨rfl, hp, .fpErr q _ rfl ‹_› (raise_next h)⟩
    · exact .inr ⟨rfl, hp, .fpOk q _ rfl ‹_› (complete_next h)⟩
  | reserved =>
    unfold exec execReserved at h
    obtain ⟨hp, h⟩ := whenIdle_next h
    exact .inr ⟨rfl, hp, .refused _ (.inl ⟨rfl, rfl⟩) (refuse_next h)⟩
  | attach hd =>
    unfold exec execAttach at h
    obtain ⟨hp, h⟩ := whenIdle_next h
    dsimp only at h
    split at h
    · exact .inr ⟨rfl, hp, .refused _ (.inr (.inl ⟨⟨hd, rfl⟩, rfl, by simp [*]⟩)) (refuse_next h)⟩
    · exact .inr ⟨rfl, hp, .attached hd rfl ‹_› (complete_next h)⟩
  | release =>
    unfold exec execRelease at h
    obtain ⟨hp, h⟩ := whenIdle_next h
    dsimp only at h
    split at h
    · exact .inr ⟨rfl, hp, .refused _ (.inr (.inr ⟨rfl, rfl, ‹_›⟩)) (refuse_next h)⟩
    · exact .inr ⟨rfl, hp, .released _ rfl ‹_› (complete_next h)⟩

end Sys2Proof.Machine
end

