-- ==== Sys2Proof/Laws/PerInstr.lean ====
section
/-! SUPPORT. Laws/PerInstr.lean: what holds of every request as syntax, one lemma for each constructor: its encoding is a
well-formed request with the selector of R44, and the decoder reads the request back from it. -/

namespace Sys2Proof.Laws.RequestEncoding

/-- The selector of R44. -/
def selector : Instr → Nat
  | .init => 0
  | .measure => 1
  | .getbase => 2
  | .setbase _ _ => 3
  | .getbase2 => 4
  | .setbase2 _ => 5
  | .measraw => 6
  | .selftest => 7
  | .sethum _ => 8
  | .getfeat => 9
  | .getserial => 10
  | .crc8 _ => 11
  | .fpenc _ => 12
  | .reserved => 13
  | .attach _ => 14
  | .release => 15

/-- The encoding of a request is well formed, carries R44's selector, and decodes to the request. -/
def Statement (i : Instr) : Prop :=
  (encode i).wellFormed = true ∧ (encode i).opsel.toNat = selector i ∧ decode (encode i) = .ok i

theorem init : Statement .init := ⟨rfl, rfl, rfl⟩
theorem measure : Statement .measure := ⟨rfl, rfl, rfl⟩
theorem getbase : Statement .getbase := ⟨rfl, rfl, rfl⟩
theorem setbase (a b : Word) : Statement (.setbase a b) := ⟨rfl, rfl, rfl⟩
theorem getbase2 : Statement .getbase2 := ⟨rfl, rfl, rfl⟩
theorem setbase2 (w : Word) : Statement (.setbase2 w) := ⟨rfl, rfl, rfl⟩
theorem measraw : Statement .measraw := ⟨rfl, rfl, rfl⟩
theorem selftest : Statement .selftest := ⟨rfl, rfl, rfl⟩
theorem sethum (h : Humidity) : Statement (.sethum h) := ⟨rfl, rfl, rfl⟩
theorem getfeat : Statement .getfeat := ⟨rfl, rfl, rfl⟩
theorem getserial : Statement .getserial := ⟨rfl, rfl, rfl⟩
theorem crc8 (data : List Byte) : Statement (.crc8 data) := ⟨rfl, rfl, rfl⟩
theorem fpenc (h : Humidity) : Statement (.fpenc h) := ⟨rfl, rfl, rfl⟩
theorem reserved : Statement .reserved := ⟨rfl, rfl, rfl⟩
theorem attach (hd : Handle) : Statement (.attach hd) := ⟨rfl, rfl, rfl⟩
theorem release : Statement .release := ⟨rfl, rfl, rfl⟩

end Sys2Proof.Laws.RequestEncoding
end

