-- ==== Sys2Proof/Laws/Step.lean ====
section
/-! SUPPORT. Laws/Step.lean: what one step can do, said once, and each bus request's meaning as the shared sequence. -/

namespace Sys2Proof.Machine

/-- A step that answers a next state waits, or runs one request on the engine whose turn it is: the one at its port, taken,
or the one in progress. -/
theorem step_next {s t : State} (h : step s = .next t) :
    (s.takeTurn.eng.phase = .idle ∧ s.takeTurn.eng.reqs = [] ∧ t = s.takeTurn) ∨
    (∃ r rs i, s.takeTurn.eng.phase = .idle ∧ s.takeTurn.eng.reqs = r :: rs ∧ decode r = .ok i ∧
      exec i s.takeTurn.popRequest = .next t) ∨
    (∃ i, s.takeTurn.eng.phase ≠ .idle ∧ s.takeTurn.eng.op = some i ∧ exec i s.takeTurn = .next t) := by
  unfold step at h
  split at h
  · rename_i hf
    unfold fetch at hf
    split at hf
    · split at hf
      · cases h; exact .inl ⟨‹_›, ‹_›, rfl⟩
      · split at hf <;> cases hf
    · split at hf <;> cases hf
  · rename_i i u hf
    unfold fetch at hf
    split at hf
    · split at hf
      · cases hf
      · split at hf
        · cases hf
        · cases hf; exact .inr (.inl ⟨_, _, _, ‹_›, ‹_›, ‹_›, h⟩)
    · split at hf
      · cases hf
      · cases hf; exact .inr (.inr ⟨_, ‹_›, ‹_›, h⟩)
  · cases h
  · cases h

/-- A step of an engine in IDLE with a request at its port runs that request. -/
theorem step_idle {s : State} {r : Request} {rs : List Request} {i : Instr} (hp : s.takeTurn.eng.phase = .idle)
    (hr : s.takeTurn.eng.reqs = r :: rs) (hd : decode r = .ok i) : step s = exec i s.takeTurn.popRequest := by
  simp [step, fetch, hp, hr, hd]

/-- A step of an engine with an operation in progress runs that operation's request. -/
theorem step_busy {s : State} {i : Instr} (hp : s.takeTurn.eng.phase ≠ .idle) (ho : s.takeTurn.eng.op = some i) :
    step s = exec i s.takeTurn := by
  have hf : fetch s.takeTurn = .run i s.takeTurn := by
    unfold fetch
    split
    · exact absurd ‹_› hp
    · simp [ho]
  rw [step, hf]

/-- A step takes one turn off the list. -/
theorem takeTurn_turns (s : State) : s.takeTurn.turns = s.turns.tail := by
  unfold State.takeTurn
  split <;> simp [*]

/-- A run of the machine starts with a step. -/
theorem runFrom_cons (s : State) (k : Nat) : runFrom s (k + 1) =
    match step s with
    | .next t => runFrom t k
    | .fault f => .fault f
    | .refused r => .refused r := by
  cases h : step s <;> simp [runFrom, Host.Core.run, Sys2Proof.core, h]

/-- A run of the machine ends with a step. -/
theorem runFrom_succ (s : State) (k : Nat) : runFrom s (k + 1) =
    match runFrom s k with
    | .next t => step t
    | .fault f => .fault f
    | .refused r => .refused r := by
  induction k generalizing s with
  | zero =>
    rw [runFrom_cons]
    show _ = step s
    cases step s <;> rfl
  | succ k ih =>
    rw [runFrom_cons, runFrom_cons]
    cases step s with
    | next t => exact ih t
    | fault f => rfl
    | refused r => rfl

/-- A bus request runs the sequence of R62, with a read when its operation has a response frame. -/
theorem exec_bus {i : Instr} {op : BusOp} (hi : busOp? i = some op) :
    exec i = if rxLen op = 0 then runWriteOnly op i else runReading op i (decodeRx op) := by
  cases i <;> simp only [busOp?] at hi <;> cases hi <;> rfl

/-- The encoder's only error is the range error (R97). -/
theorem fpenc_error {h : Humidity} {k : ErrKind} (hk : fpenc h = .error k) : k = .fixedPointRange := by
  unfold fpenc at hk
  split at hk
  · split at hk
    · cases hk; rfl
    · split at hk
      · cases hk; rfl
      · split at hk <;> cases hk; rfl
  all_goals cases hk; rfl

end Sys2Proof.Machine
end

