-- ==== Sys2Proof/Tests/Slice0.lean ====
section
/-! SUPPORT. Tests/Slice0.lean: the model's own tests. Expected values are the spec's own (95_test_vectors.md and the
examples of the rules); each test takes one step or one pure function. The witnesses meet the hypotheses of the statements
in Certificates/Slice0/Obligations.lean. -/

namespace Sys2Proof.Tests

open Sys2Proof.Machine

/-! ### Helpers -/

/-- The moving engine of the next state. -/
def engOf : Result → Option Engine
  | .next t => some t.eng
  | .fault _ => none
  | .refused _ => none

/-- The responses after one exec. -/
def respsOf (r : Result) : Option (List Response) := (engOf r).map (·.resps)

/-- The payload of TX, past the two command bytes, after one exec. -/
def payloadOf (r : Result) : Option Frame := (engOf r).bind fun e => e.tx.map (List.drop 2)

def isNext : Result → Bool
  | .next _ => true
  | .fault _ => false
  | .refused _ => false

def hd0 : Handle := Handle.zero
def e0 : TErr := TErr.zero

/-- Attached and idle, with one write, one delay and one read answered. -/
def ready (rx : Frame) : State :=
  { eng := { att := .attached hd0, writes := [.answer .wOk], delays := [.answer ()], reads := [.answer (.rOk rx)] } }

/-- Attached and idle, with a failing write and a failing read. -/
def failing : State :=
  { eng := { att := .attached hd0, writes := [.answer (.wErr e0)], delays := [.answer ()],
             reads := [.answer (.rErr e0)] } }

/-- The request in progress in a phase, with its frames; calls answered as in `ready`. -/
def during (i : Instr) (p : Phase) (tx rx : Option Frame) : State :=
  { eng := { att := .attached hd0, phase := p, op := some i, tx := tx, rx := rx,
             writes := [.answer .wOk], delays := [.answer ()], reads := [.answer (.rOk [])] } }

/-- The same with every call unanswered. -/
def unanswered (i : Instr) (p : Phase) (tx : Option Frame) : State :=
  { eng := { att := .attached hd0, phase := p, op := some i, tx := tx,
             writes := [.silent], delays := [.silent], reads := [.silent] } }

/-- A second engine in WR on the same bus. -/
def busy : State := { eng := { att := .attached hd0 }, others := [{ att := .attached hd0, phase := .wr }] }

/-! ### Requests: well-formedness and decoding (R44, R45), words written out from the table -/

theorem test_wf_refuses_missing_operand : Request.wellFormed ⟨0b0011#4, [.word 0]⟩ = false := by decide
theorem test_wf_refuses_missing_word : Request.wellFormed ⟨0b0101#4, []⟩ = false := by decide
theorem test_wf_refuses_word_for_humidity : Request.wellFormed ⟨0b1000#4, [.word 0]⟩ = false := by decide
theorem test_wf_refuses_word_for_bytes : Request.wellFormed ⟨0b1011#4, [.word 0]⟩ = false := by decide
theorem test_wf_refuses_missing_humidity : Request.wellFormed ⟨0b1100#4, []⟩ = false := by decide
theorem test_wf_refuses_missing_handle : Request.wellFormed ⟨0b1110#4, []⟩ = false := by decide
theorem test_wf_refuses_extra_operand : Request.wellFormed ⟨0b0000#4, [.word 0]⟩ = false := by decide

theorem test_decode_init : decode ⟨0b0000#4, []⟩ = .ok .init := by rfl
theorem test_decode_measure : decode ⟨0b0001#4, []⟩ = .ok .measure := by rfl
theorem test_decode_getbase : decode ⟨0b0010#4, []⟩ = .ok .getbase := by rfl
theorem test_decode_setbase :
    decode ⟨0b0011#4, [.word 0x8A7B#16, .word 0x8F3D#16]⟩ = .ok (.setbase 0x8A7B#16 0x8F3D#16) := by rfl
theorem test_decode_getbase2 : decode ⟨0b0100#4, []⟩ = .ok .getbase2 := by rfl
theorem test_decode_setbase2 : decode ⟨0b0101#4, [.word 0x0042#16]⟩ = .ok (.setbase2 0x0042#16) := by rfl
theorem test_decode_measraw : decode ⟨0b0110#4, []⟩ = .ok .measraw := by rfl
theorem test_decode_selftest : decode ⟨0b0111#4, []⟩ = .ok .selftest := by rfl
theorem test_decode_sethum : decode ⟨0b1000#4, [.humidity (.exact 10)]⟩ = .ok (.sethum (.exact 10)) := by rfl
theorem test_decode_getfeat : decode ⟨0b1001#4, []⟩ = .ok .getfeat := by rfl
theorem test_decode_getserial : decode ⟨0b1010#4, []⟩ = .ok .getserial := by rfl
theorem test_decode_crc8 : decode ⟨0b1011#4, [.bytes [0xBE#8, 0xEF#8]]⟩ = .ok (.crc8 [0xBE#8, 0xEF#8]) := by rfl
theorem test_decode_fpenc : decode ⟨0b1100#4, [.humidity .nan]⟩ = .ok (.fpenc .nan) := by rfl
theorem test_decode_reserved : decode ⟨0b1101#4, []⟩ = .ok .reserved := by rfl
theorem test_decode_attach (hd : Handle) : decode ⟨0b1110#4, [.handle hd]⟩ = .ok (.attach hd) := by rfl
theorem test_decode_release : decode ⟨0b1111#4, []⟩ = .ok .release := by rfl
theorem test_decode_refuses_by_name : decode ⟨0b0011#4, []⟩ = .error (.operandFields 0b0011#4) := by rfl

theorem test_table_words :
    decodeTableWord 8 0x0 = some .init ∧ decodeTableWord 8 0x3 = some (.setbase 0 0) ∧
    decodeTableWord 8 0x8 = some (.sethum (.exact 0)) ∧ decodeTableWord 8 0xB = some (.crc8 []) ∧
    decodeTableWord 8 0xD = some .reserved ∧ decodeTableWord 8 0xF = some .release ∧
    decodeTableWord 8 0x10 = none := by decide

/-- Every table word runs as the first request after reset. -/
theorem test_table_words_run_from_reset :
    ∀ w : Fin 16, isNext (step (State.reset.withFetchWord 8 w.val)) = true := by decide +kernel

/-! ### Checksum (V-CRC, V-TRI) -/

theorem test_crc8_vectors :
    crc8 [] = 0xFF#8 ∧ crc8 [0x00#8] = 0xAC#8 ∧ crc8 [0xBE#8] = 0x0C#8 ∧ crc8 [0xBE#8, 0xEF#8] = 0x92#8 ∧
    crc8 [0xFF#8] = 0x00#8 ∧ crc8 [0x01#8] = 0x9D#8 := by decide +kernel

theorem test_crc8_longer_vectors :
    crc8 [0xBE#8, 0xEF#8, 0x92#8] = 0x00#8 ∧ crc8 [0x01#8, 0x90#8, 0x00#8, 0x00#8] = 0x3D#8 ∧
    crc8 [0x12#8, 0x34#8, 0x56#8] = 0x8A#8 := by decide +kernel

theorem test_triplets :
    frameValid [0xFF#8, 0x00#8, 0x00#8] = true ∧ frameValid [0xBE#8, 0xEF#8, 0x93#8] = false ∧
    frameValid [0xD5#8, 0x00#8, 0xC6#8] = false := by decide +kernel

/-! ### The 8.8 encoder (V-FP) -/

/-- A rational in lowest terms. -/
def ratio (n : Int) (d : Nat) (hd : d ≠ 0) (hc : n.natAbs.Coprime d) : Humidity := .exact ⟨n, d, hd, hc⟩

/-- The word, or none for the range error. -/
def encoded (h : Humidity) : Option Word := (fpenc h).toOption

theorem test_fpenc_half : encoded (ratio 31 2 (by decide) (by decide)) = some 0x0F80#16 := by decide +kernel
theorem test_fpenc_truncates : encoded (ratio 14999 1000 (by decide) (by decide)) = some 0x0EFF#16 := by decide +kernel
theorem test_fpenc_tenth : encoded (ratio 1 10 (by decide) (by decide)) = some 0x0019#16 := by decide +kernel
theorem test_fpenc_largest : encoded (ratio 65535 256 (by decide) (by decide)) = some 0xFFFF#16 := by decide +kernel
theorem test_fpenc_256 : encoded (.exact 256) = none := by decide +kernel
theorem test_fpenc_255 : encoded (.exact 255) = some 0xFF00#16 := by decide +kernel
theorem test_fpenc_negative : encoded (ratio (-1) 256 (by decide) (by decide)) = none := by decide +kernel
theorem test_fpenc_nan : encoded .nan = none := by decide

/-! ### One step of each request -/

/-- V-INIT-1: the delay event, then `Ok(())`. -/
theorem test_init_settles :
    (engOf (exec .init (during .init .settle (some []) none))).map (fun e => (e.trace, e.resps, e.phase)) =
      some ([.evDelayMs 10], [.ok .unit], .idle) := by decide

/-- V-LIFE-5: a bus request while detached is refused. -/
theorem test_measure_detached :
    (engOf (exec .measure State.reset)).map (fun e => (e.refused, e.reasons, e.resps, e.phase)) =
      some (true, [.notAttached], [], .idle) := by decide

/-- V-INIT-2: a failed write ends the operation with no delay. -/
theorem test_init_write_fails :
    respsOf (exec .init { failing with eng := { failing.eng with phase := .wr, op := some .init, tx := some [] } }) =
      some [.err (.transport e0)] := by decide

/-- V-MEAS-1. -/
theorem test_measure_decodes :
    respsOf (exec .measure (during .measure .dec (some [])
      (some [0x01#8, 0x90#8, 0x4C#8, 0x00#8, 0x00#8, 0x81#8]))) = some [.ok (.air 400#16 0#16)] := by decide

/-- V-MEAS-2: the second triplet bad. -/
theorem test_measure_second_triplet_bad :
    respsOf (exec .measure (during .measure .chk (some [])
      (some [0x01#8, 0x90#8, 0x4C#8, 0x00#8, 0x00#8, 0x80#8]))) = some [.err .checksumMismatch] := by decide +kernel

/-- V-GB-1. -/
theorem test_getbase_decodes :
    respsOf (exec .getbase (during .getbase .dec (some [])
      (some [0x8A#8, 0x7B#8, 0x5E#8, 0x8F#8, 0x3D#8, 0xB2#8]))) = some [.ok (.baseline 0x8A7B#16 0x8F3D#16)] := by decide

/-- V-SETBASE-1: `a` first. -/
theorem test_setbase_frame :
    payloadOf (exec (.setbase 0x8A7B#16 0x8F3D#16) (during (.setbase 0x8A7B#16 0x8F3D#16) .enc none none)) =
      some [0x8A#8, 0x7B#8, 0x5E#8, 0x8F#8, 0x3D#8, 0xB2#8] := by decide +kernel

/-- V-GB2-2: a bad checksum byte. -/
theorem test_getbase2_bad_checksum :
    respsOf (exec .getbase2 (during .getbase2 .chk (some []) (some [0x00#8, 0x42#8, 0xDF#8]))) =
      some [.err .checksumMismatch] := by decide +kernel

/-- V-SETBASE2-1. -/
theorem test_setbase2_frame :
    payloadOf (exec (.setbase2 0x0042#16) (during (.setbase2 0x0042#16) .enc none none)) =
      some [0x00#8, 0x42#8, 0xDE#8] := by decide +kernel

/-- V-RAW-1: 25 ms, then the read. -/
theorem test_measraw_settles :
    (engOf (exec .measraw (during .measraw .settle (some []) none))).map (fun e => (e.trace, e.phase)) =
      some ([.evDelayMs 25], .rd) := by decide

/-- V-ST-4: the high byte differs. -/
theorem test_selftest_other_pattern :
    respsOf (exec .selftest (during .selftest .dec (some []) (some [0xD5#8, 0x00#8, 0x32#8]))) =
      some [.ok (.flag false)] := by decide

/-- V-ST-1. -/
theorem test_selftest_passes :
    respsOf (exec .selftest (during .selftest .dec (some []) (some [0xD4#8, 0x00#8, 0xC6#8]))) =
      some [.ok (.flag true)] := by decide

/-- V-SETHUM-1. -/
theorem test_sethum_frame :
    payloadOf (exec (.sethum (ratio 31 2 (by decide) (by decide)))
      (during (.sethum (ratio 31 2 (by decide) (by decide))) .enc none none)) =
      some [0x0F#8, 0x80#8, 0x62#8] := by decide +kernel

/-- V-SETHUM-3: no write, no delay. -/
theorem test_sethum_out_of_range :
    (engOf (exec (.sethum (.exact 555)) (during (.sethum (.exact 555)) .enc none none))).map
      (fun e => (e.trace, e.resps, e.phase)) = some ([], [.err .fixedPointRange], .idle) := by decide +kernel

/-- V-FEAT-3: the low nibble of the first byte is discarded. -/
theorem test_getfeat_decodes :
    respsOf (exec .getfeat (during .getfeat .dec (some []) (some [0x1F#8, 0x42#8, 0x29#8]))) =
      some [.ok (.feature 1#4 0x42#8)] := by decide

/-- V-SER-1. -/
theorem test_getserial_decodes :
    respsOf (exec .getserial (during .getserial .dec (some [])
      (some [0x12#8, 0x34#8, 0x37#8, 0x56#8, 0x78#8, 0x7D#8, 0x9A#8, 0xBC#8, 0xE0#8]))) =
      some [.ok (.serial 0x0000123456789ABC#64)] := by decide +kernel

/-- V-SER-1: the one delay in microseconds. -/
theorem test_getserial_settles :
    (engOf (exec .getserial (during .getserial .settle (some []) none))).map (·.trace) =
      some [.evDelayUs 500] := by decide

/-- S1, P5 step 1: legal while detached. -/
theorem test_crc8_answers :
    respsOf (exec (.crc8 [0xBE#8, 0xEF#8]) State.reset) = some [.ok (.byte 0x92#8)] := by decide +kernel

/-- S5. -/
theorem test_fpenc_out_of_range :
    respsOf (exec (.fpenc (.exact 555)) State.reset) = some [.err .fixedPointRange] := by decide +kernel

/-- V-LIFE-1. -/
theorem test_attach :
    (engOf (exec (.attach hd0) State.reset)).map (fun e => (e.att, e.resps, e.trace)) =
      some (.attached hd0, [.ok .unit], []) := by decide

/-- V-LIFE-3: whatever the second handle is. -/
theorem test_attach_twice (hd : Handle) :
    (engOf (exec (.attach hd) (ready []))).map (fun e => (e.att, e.reasons, e.resps)) =
      some (.attached hd0, [.alreadyAttached], []) := by rfl

/-- V-LIFE-2. -/
theorem test_release :
    (engOf (exec .release (ready []))).map (fun e => (e.att, e.resps)) =
      some (.detached, [.ok (.handle hd0)]) := by decide

/-- V-LIFE-4. -/
theorem test_release_detached :
    (engOf (exec .release State.reset)).map (fun e => (e.refused, e.reasons)) =
      some (true, [.notAttached]) := by decide

/-- V-LIFE-7. -/
theorem test_reserved :
    (engOf (exec .reserved State.reset)).map (fun e => (e.refused, e.reasons, e.att, e.resps)) =
      some (true, [.reservedSelector], .detached, []) := by decide

/-- R120: a bus request while another engine is in WR. -/
theorem test_overlap :
    (engOf (exec .init busy)).map (fun e => (e.refused, e.reasons, e.phase)) =
      some (true, [.sharedBusOverlap], .idle) := by decide

/-- R69. -/
theorem test_unanswered_write :
    exec .init (unanswered .init .wr (some [])) = .fault (.unanswered .busWrite) := by rfl

/-- An engine takes its turn: the second engine, attached and in IDLE with nothing at its port, waits. -/
theorem test_turn_moves_the_other_engine :
    (engOf (step { eng := {}, others := [{ att := .attached hd0 }], turns := [1] })).map (·.att) =
      some (.attached hd0) := by decide

/-- Turn 2 of three engines: the last one's request is run, and the engine that moved before stands in its place, unchanged
(R27). -/
theorem test_turn_exchanges_engines :
    (match step { eng := { att := .attached hd0 }, others := [{}, { reqs := [⟨0xD, []⟩] }], turns := [2] } with
      | .next t => some (t.others, t.eng.reasons, t.turns)
      | .fault _ => none
      | .refused _ => none) = some ([{}, { att := .attached hd0 }], [.reservedSelector], []) := by decide

/-! ### Witnesses: the hypotheses of the statements can be met, each clause's -/

theorem witness_StepRunsTheRequest :
    (∃ s : State, ∃ r rs i, s.takeTurn.eng.phase = .idle ∧ s.takeTurn.eng.reqs = r :: rs ∧ decode r = .ok i) ∧
    (∃ s : State, ∃ i, s.takeTurn.eng.phase ≠ .idle ∧ s.takeTurn.eng.op = some i) ∧
    (∃ s : State, s.takeTurn.eng.phase = .idle ∧ s.takeTurn.eng.reqs = []) :=
  ⟨⟨{ eng := { reqs := [⟨0xF, []⟩] } }, ⟨0xF, []⟩, [], .release, rfl, rfl, rfl⟩,
    ⟨during .init .enc none none, .init, by decide, rfl⟩, ⟨State.reset, rfl, rfl⟩⟩

theorem witness_FetchedWordRunsNext : decodeTableWord 8 0xF = some .release ∧ decodeTableWord 4 0x0 = some .init := by decide

theorem witness_DecodeInvertsEncode : decode ⟨0xE, [.handle hd0]⟩ = .ok (.attach hd0) ∧ encode (.attach hd0) = ⟨0xE, [.handle hd0]⟩ :=
  ⟨rfl, rfl⟩

theorem ready_ready (rx : Frame) : (ready rx).Ready hd0 := ⟨rfl, rfl, rfl⟩

theorem failing_ready : failing.Ready hd0 := ⟨rfl, rfl, rfl⟩

theorem witness_BusRequestIsAccepted : busOp? .getserial = some .getserial ∧ (ready []).Ready hd0 := ⟨rfl, ready_ready []⟩

theorem witness_SecondRequestGetsNoStep :
    (during .init .enc none none).eng.phase ≠ .idle ∧ (during .init .enc none none).eng.op ≠ some .release := by decide

theorem witness_MeaninglessRequestsAreRefused :
    (State.reset.eng.phase = .idle ∧ State.reset.eng.att = .detached ∧ busOp? .measure = some .measure) ∧
    ((ready []).eng.phase = .idle ∧ (ready []).eng.att = .attached hd0) := by decide

theorem witness_OverlappingOperationsAreRefused :
    (busOp? .init = some .init ∧ busy.eng.att = .attached hd0 ∧ busy.eng.phase = .idle ∧
      ∃ e ∈ busy.others, e.onBus = true) ∧
    (∃ s : State, ∃ f, s.eng.att = .attached hd0 ∧ s.eng.phase = .enc ∧ s.eng.op = some .init ∧
      encodeTx .init .init = .ok f ∧ ∃ e ∈ s.others, e.onBus = true) :=
  ⟨by decide, { busy with eng := { busy.eng with phase := .enc, op := some .init } }, cmd .init, rfl, rfl, rfl, rfl,
    by decide⟩

theorem witness_EncodingStepBuildsTheFrame :
    (∃ s : State, s.eng.phase = .enc ∧ s.eng.op = some (.sethum .nan) ∧ fpenc .nan = .error .fixedPointRange) ∧
    (∃ s : State, s.eng.phase = .enc ∧ s.busTaken = false ∧ s.eng.op = some (.setbase 0 1)) ∧
    (∃ s : State, s.eng.phase = .enc ∧ s.busTaken = false ∧ s.eng.op = some (.setbase2 1)) ∧
    (∃ s : State, s.eng.phase = .enc ∧ s.busTaken = false ∧ s.eng.op = some (.sethum (.exact 0)) ∧
      fpenc (.exact 0) = .ok 0) ∧
    (∃ s : State, s.eng.phase = .enc ∧ s.busTaken = false ∧ s.eng.op = some .init ∧ busOp? .init = some .init ∧
      txLen .init = 2) :=
  ⟨⟨during (.sethum .nan) .enc none none, rfl, rfl, rfl⟩, ⟨during (.setbase 0 1) .enc none none, rfl, rfl, rfl⟩,
    ⟨during (.setbase2 1) .enc none none, rfl, rfl, rfl⟩,
    ⟨during (.sethum (.exact 0)) .enc none none, rfl, rfl, rfl, rfl⟩,
    ⟨during .init .enc none none, rfl, rfl, rfl, rfl, rfl⟩⟩

theorem witness_WriteStepFollowsTheAnswer :
    (during .init .wr (some []) none).writeReply hd0 = .answer .wOk ∧
    { failing with eng := { failing.eng with phase := .wr, op := some .init, tx := some [] } }.writeReply hd0 =
      .answer (.wErr e0) ∧
    (unanswered .init .wr (some [])).writeReply hd0 = .silent ∧
    (during .init .wr (some []) none).eng.tx = some [] ∧ (during .init .wr (some []) none).eng.att = .attached hd0 ∧
    (during .init .wr (some []) none).eng.op = some .init ∧ (during .init .wr (some []) none).eng.phase = .wr := by decide

theorem witness_SettleStepWaitsTheDelay :
    (during .init .settle (some []) none).delayReply = .answer () ∧ rxLen .init = 0 ∧ rxLen .measure ≠ 0 ∧
    (during .measure .settle (some []) none).delayReply = .answer () ∧
    (unanswered .init .settle (some [])).delayReply = .silent ∧
    (during .init .settle (some []) none).eng.op = some .init ∧ (during .init .settle (some []) none).eng.phase = .settle := by
  decide

theorem witness_ReadStepFollowsTheAnswer :
    (∃ bs, { ready [1#8, 2#8, 3#8] with eng := { (ready [1#8, 2#8, 3#8]).eng with phase := .rd, op := some .measraw } }.readReply
      hd0 (rxLen .measraw) = .answer (.rOk bs)) ∧
    { failing with eng := { failing.eng with phase := .rd, op := some .measraw } }.readReply hd0 (rxLen .measraw) =
      .answer (.rErr e0) ∧
    (unanswered .measraw .rd (some [])).readReply hd0 (rxLen .measraw) = .silent ∧
    rxLen .measraw ≠ 0 ∧ busOp? .measraw = some .measraw :=
  ⟨⟨[1#8, 2#8, 3#8], rfl⟩, rfl, rfl, by decide, rfl⟩

theorem witness_CheckStepRejectsBadFrames :
    frameValid [0x00#8, 0x42#8, 0xDF#8] = false ∧ frameValid [0x00#8, 0x42#8, 0xDE#8] = true ∧
    (during .getbase2 .chk none (some [0x00#8, 0x42#8, 0xDF#8])).eng.rx = some [0x00#8, 0x42#8, 0xDF#8] ∧
    (during .getbase2 .chk none (some [0x00#8, 0x42#8, 0xDF#8])).eng.op = some .getbase2 ∧ rxLen .getbase2 ≠ 0 := by
  decide +kernel

theorem witness_DecodeStepAnswersTheValue :
    (during .getfeat .dec none (some [0#8, 0x22#8, 0x65#8])).eng.phase = .dec ∧
    (during .getfeat .dec none (some [0#8, 0x22#8, 0x65#8])).eng.rx = some [0#8, 0x22#8, 0x65#8] ∧
    (during .getfeat .dec none (some [0#8, 0x22#8, 0x65#8])).eng.op = some .getfeat := by decide

/-- The scripts of the whole-operation statements: `WritesAndReturns`, `EndsOnWriteError`, `EndsOnReadError`,
`EndsOnChecksum`, `ReadsAndReturns`. -/
theorem witness_whole_operations :
    ((ready [0x00#8, 0x42#8, 0xDE#8]).Ready hd0 ∧ (ready [0x00#8, 0x42#8, 0xDE#8]).eng.writes = [.answer .wOk] ∧
      (ready [0x00#8, 0x42#8, 0xDE#8]).eng.delays = [.answer ()] ∧
      (ready [0x00#8, 0x42#8, 0xDE#8]).eng.reads = [.answer (.rOk [0x00#8, 0x42#8, 0xDE#8])]) ∧
    (failing.Ready hd0 ∧ failing.eng.writes = [.answer (.wErr e0)]) ∧
    (∃ s : State, s.Ready hd0 ∧ s.eng.writes = [.answer .wOk] ∧ s.eng.delays = [.answer ()] ∧
      s.eng.reads = [.answer (.rErr e0)]) :=
  ⟨⟨ready_ready _, rfl, rfl, rfl⟩, ⟨failing_ready, rfl⟩,
    { failing with eng := { failing.eng with writes := [.answer .wOk] } }, ⟨rfl, rfl, rfl⟩, rfl, rfl, rfl⟩

/-- MEASURE, GETBASE: both triplets good; first bad; second bad. -/
theorem witness_two_triplets :
    (crc8 [0x01#8, 0x90#8] = 0x4C#8 ∧ crc8 [0x00#8, 0x00#8] = 0x81#8) ∧ crc8 [0x01#8, 0x90#8] ≠ 0xB3#8 ∧
    crc8 [0x00#8, 0x00#8] ≠ 0x80#8 := by decide +kernel

/-- GETBASE2, MEASRAW, SELFTEST, GETFEAT: the triplet good, and bad. -/
theorem witness_one_triplet : crc8 [0xD4#8, 0x00#8] = 0xC6#8 ∧ crc8 [0xD4#8, 0x00#8] ≠ 0xC7#8 := by decide +kernel

/-- GETSERIAL: three triplets good; the third bad. -/
theorem witness_three_triplets :
    (crc8 [0x12#8, 0x34#8] = 0x37#8 ∧ crc8 [0x56#8, 0x78#8] = 0x7D#8 ∧ crc8 [0x9A#8, 0xBC#8] = 0xE0#8) ∧
    crc8 [0x9A#8, 0xBC#8] ≠ 0xE1#8 := by decide +kernel

theorem witness_SethumRuns :
    (∃ q, fpenc (.exact 10) = .ok q) ∧ (∃ k, fpenc .posInf = .error k) ∧ (ready []).Ready hd0 :=
  ⟨⟨_, rfl⟩, ⟨_, rfl⟩, ready_ready []⟩

theorem witness_bus_free_answers :
    State.reset.eng.phase = .idle ∧ State.reset.eng.att = .detached ∧ (ready []).eng.phase = .idle ∧
    (ready []).eng.att = .attached hd0 := by decide

theorem witness_OneAlteredByteFailsTheCheck :
    frameValid [0xBE#8, 0xEF#8, 0x92#8] = true ∧ (0xBF#8 ≠ 0xBE#8) ∧ (0xEE#8 ≠ 0xEF#8) ∧ (0x93#8 ≠ 0x92#8) := by
  decide +kernel

theorem witness_FpencTruncatesExactly :
    (0 : ℚ) ≤ 0 ∧ (0 : ℚ) < 256 ∧ (0 : ℚ) ≤ 65535 / 256 ∧ (65535 / 256 : ℚ) < 256 ∧ (-1 / 256 : ℚ) < 0 ∧ (256 : ℚ) ≤ 256 := by
  norm_num

theorem witness_WriteFramesHaveTheirLength :
    busOp? (.setbase 0 0) = some .setbase ∧ ∃ f, encodeTx .setbase (.setbase 0 0) = .ok f := ⟨rfl, _, rfl⟩

/-- The statements about every exec that answers a next state: a bus request, a lifecycle request, a codec request, the
reserved selector, and one that answers an error. -/
theorem witness_exec_next :
    isNext (exec .init (ready [])) = true ∧ isNext (exec (.attach hd0) State.reset) = true ∧
    isNext (exec (.crc8 []) State.reset) = true ∧ isNext (exec .reserved State.reset) = true ∧
    busOp? (.crc8 []) = none ∧ busOp? .init = some .init := by decide

theorem witness_ErrorsOfEachRequest :
    respsOf (exec (.fpenc .nan) State.reset) = some (State.reset.eng.resps ++ [.err .fixedPointRange]) := by decide

theorem reset_wellFormed : State.reset.WellFormed := by
  intro e he
  rw [State.engine_of_resetWith he]
  exact ⟨⟨rfl, rfl, rfl⟩, by simp, by simp⟩

theorem witness_StepKeepsWellFormed : State.reset.WellFormed ∧ isNext (step State.reset) = true :=
  ⟨reset_wellFormed, by decide⟩

theorem witness_StepKeepsOneOperationOnTheBus : busy.OneOnBus ∧ isNext (step busy) = true :=
  ⟨by unfold State.OneOnBus; decide, by decide⟩

theorem witness_PhasesRefineTheTransaction :
    busOp? .getbase2 = some .getbase2 ∧ (ready [0x00#8, 0x42#8, 0xDE#8]).Ready hd0 ∧
    (ready [0x00#8, 0x42#8, 0xDE#8]).eng.reads = [.answer (.rOk [0x00#8, 0x42#8, 0xDE#8])] ∧
    [0x00#8, 0x42#8, 0xDE#8].length = rxLen .getbase2 := ⟨rfl, ready_ready _, rfl, rfl⟩

/-- Each clause of TurnsSelectTheMovingEngine: no turn, turn 0, one past the end at its lowest, the first and the last of
two others, and a step that answers a next state. -/
theorem witness_TurnsSelectTheMovingEngine :
    State.reset.turns = [] ∧ (∃ s : State, s.turns = [0]) ∧
    (∃ s : State, s.turns = [0 + 1] ∧ s.others.length ≤ 0) ∧
    (∃ s : State, ∃ e, s.turns = [([] : List Engine).length + 1] ∧ s.others = [] ++ e :: [default]) ∧
    (∃ s : State, ∃ e, s.turns = [[(default : Engine)].length + 1] ∧ s.others = [default] ++ e :: []) ∧
    isNext (step State.reset) = true :=
  ⟨rfl, ⟨{ turns := [0] }, rfl⟩, ⟨{ turns := [1] }, rfl, Nat.le_refl 0⟩,
    ⟨{ turns := [1], others := [default, default] }, default, rfl, rfl⟩,
    ⟨{ turns := [2], others := [default, default] }, default, rfl, rfl⟩, by decide⟩

/-- An idle, attached engine with GETBASE2 at its port and every call answered; an environment in which another engine is
attached, has not the bus, and has moved between. -/
theorem witness_AnsweredRequestsEndInOneResponse :
    (∃ e : Engine, e.phase = .idle ∧ e.reqs = [⟨0x4, []⟩] ∧
      decode ⟨0x4, []⟩ = .ok .getbase2 ∧ e.writes = [.answer .wOk] ∧ e.delays = [.answer ()] ∧
      e.reads = [.answer (.rOk [])] ∧ e.att ≠ .detached ∧ ∃ s : State, s.eng = e ∧ s.turns = [] ∧ s.busTaken = false) ∧
    (∃ env : Nat → State, (env 0).busTaken = false ∧ (env 1).busTaken = false ∧ (env 2).turns = [1] ∧
      (env 0).others ≠ (env 1).others) :=
  ⟨⟨{ (ready []).eng with reqs := [⟨0x4, []⟩] }, rfl, rfl, rfl, rfl, rfl, rfl, by decide,
      { eng := { (ready []).eng with reqs := [⟨0x4, []⟩] } }, rfl, rfl, rfl⟩,
    ⟨fun n => { others := [{ att := if n = 0 then .detached else .attached hd0 }], turns := [1] }, rfl, rfl, rfl, by decide⟩⟩

theorem witness_PayloadsAndHandlesAreOpaque : failing.eng.writes ≠ [] ∧ failing.eng.reads ≠ [] := by decide

end Sys2Proof.Tests
end

section
/-! PROOFS. Words and their bytes: `w16`, `hi8`, `lo8` and `be` in arithmetic (R8, R94), and the obligation that says so. -/

namespace Sys2Proof.Machine

/-! ### Assembling and taking apart a word (R8) -/

@[simp] theorem toNat_w16 (hi lo : Byte) : (w16 hi lo).toNat = hi.toNat * 256 + lo.toNat := by
  have hlo : lo.toNat < 2 ^ 8 := lo.isLt
  calc (w16 hi lo).toNat = hi.toNat <<< 8 ||| lo.toNat := BitVec.toNat_append hi lo
    _ = hi.toNat <<< 8 + lo.toNat := (Nat.shiftLeft_add_eq_or_of_lt hlo hi.toNat).symm
    _ = hi.toNat * 256 + lo.toNat := by rw [Nat.shiftLeft_eq]

theorem hi8_eq_ofNat (w : Word) : hi8 w = BitVec.ofNat 8 (w.toNat / 256) := by
  rw [hi8, BitVec.extractLsb', Nat.shiftRight_eq_div_pow]

theorem lo8_eq_ofNat (w : Word) : lo8 w = BitVec.ofNat 8 (w.toNat % 256) := by
  apply BitVec.eq_of_toNat_eq
  simp [lo8]

theorem be_eq_ofNat (w : Word) :
    be w = [BitVec.ofNat 8 (w.toNat / 256), BitVec.ofNat 8 (w.toNat % 256)] := by
  rw [be, hi8_eq_ofNat, lo8_eq_ofNat]

/-- Its two bytes say all there is about a word: the quotient and the remainder by 256 give it back. -/
@[simp] theorem w16_hi8_lo8 (w : Word) : w16 (hi8 w) (lo8 w) = w := by
  have hw : w.toNat < 65536 := w.isLt
  apply BitVec.eq_of_toNat_eq
  rw [toNat_w16, hi8_eq_ofNat, lo8_eq_ofNat, BitVec.toNat_ofNat, BitVec.toNat_ofNat]
  omega

/-- Settles O38: assembly is `hi * 256 + lo`, so taking a word apart is division by 256 with its remainder. -/
theorem wordsAreBigEndian : Obligations.WordsAreBigEndian :=
  ⟨toNat_w16, fun w => ⟨be_eq_ofNat w, w16_hi8_lo8 w⟩⟩

end Sys2Proof.Machine
end

section
/-! PROOFS. Well-formed engines: reset makes them (R26, R116), and each operation on the state and each request keeps them
(R16 to R20, R33, R37). -/

namespace Sys2Proof.Machine

/-! ### Reset (R26, R116) -/

/-- Settles O1: every engine of the reset state is the reset engine, and that engine's fields are R26's. -/
theorem resetLeavesEveryEngineDetached : Obligations.ResetLeavesEveryEngineDetached := by
  have hlen (n : Nat) : (State.resetWith n).engines.length = n + 1 := by simp [State.engines]
  refine ⟨hlen _, rfl, fun n => ⟨hlen n, fun e he => ?_⟩⟩
  rw [State.engine_of_resetWith he]
  exact ⟨rfl, rfl, rfl, rfl, rfl, rfl, rfl⟩

/-- The reset engine holds no value, has an empty trace and no mark. -/
theorem Engine.default_wellFormed : Engine.WellFormed {} where
  regs := ⟨rfl, rfl, rfl⟩
  trace := by simp
  mark := by simp

theorem State.resetWith_wellFormed (n : Nat) : (State.resetWith n).WellFormed := fun e he => by
  rw [State.engine_of_resetWith he]
  exact Engine.default_wellFormed

theorem State.resetWith_oneOnBus (n : Nat) : (State.resetWith n).OneOnBus := by
  have hnone : (State.resetWith n).engines.filter Engine.onBus = [] :=
    List.filter_eq_nil_iff.2 fun e he => by
      rw [State.engine_of_resetWith he]
      decide
  simp [State.OneOnBus, hnone]

/-- Settles O53, with no engine of the reset state on the bus. -/
theorem resetIsWellFormed : Obligations.ResetIsWellFormed :=
  fun n => ⟨State.resetWith_wellFormed n, State.resetWith_oneOnBus n⟩

/-! ### What the events of a call need (R20, R33, R34, R37) -/

@[simp] theorem length_triplet (w : Word) : (triplet w).length = 3 := rfl

@[simp] theorem length_cmd (op : BusOp) : (cmd op).length = 2 := rfl

/-- R34, R46: the command and one triplet for each operand word. -/
theorem length_encodeTx {i : Instr} {op : BusOp} {f : Frame} (hi : busOp? i = some op) (h : encodeTx op i = .ok f) :
    f.length = txLen op := by
  cases i with
  | sethum q =>
    cases hi
    unfold encodeTx at h
    dsimp only at h
    split at h
    · cases h
    · cases h; rfl
  | crc8 | fpenc | reserved | attach | release => cases hi
  | _ => cases hi; cases h; rfl

theorem Event.wellFormed_write {i : Instr} {op : BusOp} {f : Frame} (hi : busOp? i = some op)
    (h : encodeTx op i = .ok f) (o : WriteOutcome) : (Event.evWrite Config.pAddr f o).WellFormed := by
  refine ⟨rfl, ?_⟩
  rw [length_encodeTx hi h]
  cases op <;> decide

theorem Event.wellFormed_delay (d : Delay) : (delayEvent d).WellFormed := by
  cases d <;> trivial

theorem Event.wellFormed_read {s : State} {hd : Handle} {n : Nat} {o : ReadOutcome}
    (hr : s.readReply hd n = .answer o) : (Event.evRead Config.pAddr n o).WellFormed := by
  cases o with
  | rOk bs => exact ⟨rfl, readReply_rOk hr⟩
  | rErr e => exact rfl

/-! ### Refusing, ending and calling keep an engine well formed -/

/-- The operation in progress is the one its request names. -/
theorem Engine.Running.unique {e : Engine} {r i : Instr} {op' op : BusOp} (h : e.Running r op')
    (ho : e.op = some i) (hi : busOp? i = some op) : r = i ∧ op' = op := by
  obtain ⟨hr, hop, -⟩ := h
  cases hr.symm.trans ho
  exact ⟨rfl, Option.some.inj (hop.symm.trans hi)⟩

/-- Once the phase is known, the registers are asked what that phase says of them. -/
theorem Engine.regsFitPhase_iff {e : Engine} {p : Phase} (hp : e.phase = p) :
    e.RegsFitPhase ↔ { e with phase := p }.RegsFitPhase := by
  subst hp; rfl

namespace Engine.WellFormed

theorem regs_at {e : Engine} {p : Phase} (h : e.WellFormed) (hp : e.phase = p) : { e with phase := p }.RegsFitPhase :=
  (regsFitPhase_iff hp).1 h.regs

/-- A refusal notes a reason as it sets the mark (R19, R108). -/
theorem refuse {e : Engine} (h : e.WellFormed) (r : Reason) : (e.refuse r).WellFormed where
  regs := h.regs
  trace := h.trace
  mark := by simp

theorem toIdle {e : Engine} (h : e.WellFormed) : e.toIdle.WellFormed where
  regs := ⟨rfl, rfl, rfl⟩
  trace := h.trace
  mark := h.mark

theorem finish {e : Engine} (h : e.WellFormed) (r : Response) : (e.finish r).WellFormed where
  regs := ⟨rfl, rfl, rfl⟩
  trace := h.trace
  mark := h.mark

/-- ATTACH and RELEASE write the attachment in IDLE, where no operation needs the handle (R76, R77). -/
theorem setAtt {e : Engine} (h : e.WellFormed) (hp : e.phase = .idle) (a : Att) : { e with att := a }.WellFormed where
  regs := (regsFitPhase_iff (e := { e with att := a }) hp).2 (h.regs_at hp)
  trace := h.trace
  mark := h.mark

theorem popRequest {s : State} (h : s.eng.WellFormed) : s.popRequest.eng.WellFormed where
  regs := h.regs
  trace := h.trace
  mark := h.mark

/-- One well-formed event more leaves the trace well formed. -/
theorem trace_append {e : Engine} (h : e.WellFormed) {ev : Event} (hev : ev.WellFormed) :
    ∀ x ∈ e.trace ++ [ev], x.WellFormed :=
  List.forall_mem_append.2 ⟨h.trace, List.forall_mem_singleton.2 hev⟩

/-- TX is the write frame of the request in progress in WR, so the write is of a legal length (R34). -/
theorem afterWrite {s : State} (h : s.eng.WellFormed) (hp : s.eng.phase = .wr) {f : Frame} (hx : s.eng.tx = some f)
    (o : WriteOutcome) : (s.afterWrite f o).eng.WellFormed where
  regs := h.regs
  trace := by
    obtain ⟨-, r, op, f', ⟨-, hop, -⟩, hx', henc⟩ := h.regs_at hp
    cases hx.symm.trans hx'
    exact h.trace_append (Event.wellFormed_write hop henc o)
  mark := h.mark

theorem afterDelay {s : State} (h : s.eng.WellFormed) (d : Delay) : (s.afterDelay d).eng.WellFormed where
  regs := h.regs
  trace := h.trace_append (Event.wellFormed_delay d)
  mark := h.mark

theorem afterRead {s : State} (h : s.eng.WellFormed) {hd : Handle} {n : Nat} {o : ReadOutcome}
    (hr : s.readReply hd n = .answer o) : (s.afterRead n o).eng.WellFormed where
  regs := h.regs
  trace := h.trace_append (Event.wellFormed_read hr)
  mark := h.mark

/-! ### So does each phase change of R62 -/

section

variable {e : Engine} {i : Instr} {op : BusOp} {f : Frame}

theorem enterEnc (h : e.WellFormed) (hp : e.phase = .idle) (hi : busOp? i = some op) {hd : Handle}
    (ha : e.att = .attached hd) : { e with phase := .enc, op := some i }.WellFormed where
  regs := by
    obtain ⟨-, htx, hrx⟩ := h.regs_at hp
    exact ⟨htx, hrx, i, op, rfl, hi, by simp [ha]⟩
  trace := h.trace
  mark := h.mark

theorem enterWr (h : e.WellFormed) (hp : e.phase = .enc) (ho : e.op = some i) (hi : busOp? i = some op)
    (henc : encodeTx op i = .ok f) : { e with phase := .wr, tx := some f }.WellFormed where
  regs := by
    obtain ⟨-, hrx, r, op', hrun⟩ := h.regs_at hp
    obtain ⟨rfl, rfl⟩ := hrun.unique ho hi
    exact ⟨hrx, r, op', f, hrun, rfl, henc⟩
  trace := h.trace
  mark := h.mark

theorem enterSettle (h : e.WellFormed) (hp : e.phase = .wr) : { e with phase := .settle }.WellFormed where
  regs := by
    obtain ⟨hrx, hframe⟩ := h.regs_at hp
    exact ⟨hrx, hframe⟩
  trace := h.trace
  mark := h.mark

theorem enterRd (h : e.WellFormed) (hp : e.phase = .settle) (ho : e.op = some i) (hi : busOp? i = some op)
    (hn : rxLen op ≠ 0) : { e with phase := .rd }.WellFormed where
  regs := by
    obtain ⟨hrx, r, op', f, hrun, htx, henc⟩ := h.regs_at hp
    obtain ⟨rfl, rfl⟩ := hrun.unique ho hi
    exact ⟨hrx, r, op', f, hrun, htx, henc, hn⟩
  trace := h.trace
  mark := h.mark

theorem enterChk (h : e.WellFormed) (hp : e.phase = .rd) (ho : e.op = some i) (hi : busOp? i = some op)
    (hlen : f.length = rxLen op) : { e with phase := .chk, rx := some f }.WellFormed where
  regs := by
    obtain ⟨-, r, op', g, hrun, htx, henc, hn⟩ := h.regs_at hp
    obtain ⟨rfl, rfl⟩ := hrun.unique ho hi
    exact ⟨r, op', g, f, hrun, htx, henc, hn, rfl, hlen⟩
  trace := h.trace
  mark := h.mark

theorem enterDec (h : e.WellFormed) (hp : e.phase = .chk) (hx : e.rx = some f) (hv : frameValid f = true) :
    { e with phase := .dec }.WellFormed where
  regs := by
    obtain ⟨r, op, g, f', hrun, htx, henc, hn, hrx, hlen⟩ := h.regs_at hp
    cases hx.symm.trans hrx
    exact ⟨r, op, g, f, hrun, htx, henc, hn, hrx, hlen, hv⟩
  trace := h.trace
  mark := h.mark

end

end Engine.WellFormed

/-! ### Every move keeps it -/

theorem BusMove.wellFormed {op : BusOp} {i : Instr} {s t : State} (m : BusMove op i s t) (hi : busOp? i = some op)
    (hw : s.eng.WellFormed) : t.eng.WellFormed := by
  cases m with
  | notAttached _ _ ht => subst ht; exact hw.refuse _
  | overlap _ _ _ _ ht => subst ht; exact hw.refuse _
  | accepted hd hp ha _ ht => subst ht; exact hw.enterEnc hp hi ha
  | encRaised _ _ _ _ ht => subst ht; exact hw.finish _
  | encOverlap _ _ _ _ _ ht => subst ht; exact (hw.refuse _).toIdle
  | encoded f hp ho henc _ ht => subst ht; exact hw.enterWr hp ho hi henc
  | writeFailed _ f e hp _ _ hx _ ht => subst ht; exact (hw.afterWrite hp hx _).finish _
  | wrote _ f hp _ _ hx _ ht => subst ht; exact (hw.afterWrite hp hx _).enterSettle hp
  | settledDone _ _ _ _ ht => subst ht; exact (hw.afterDelay _).finish _
  | settled hp ho hn _ ht => subst ht; exact (hw.afterDelay _).enterRd hp ho hi hn
  | readFailed _ _ _ _ _ _ hr ht => subst ht; exact (hw.afterRead hr).finish _
  | readDone _ _ hp ho _ _ hr ht => subst ht; exact (hw.afterRead hr).enterChk hp ho hi (readReply_rOk hr)
  | checkFailed _ _ _ _ _ _ ht => subst ht; exact hw.finish _
  | checked f hp _ _ hx hv ht => subst ht; exact hw.enterDec hp hx hv
  | decoded _ _ _ _ _ _ _ ht => subst ht; exact hw.finish _

theorem FreeMove.wellFormed {i : Instr} {s t : State} (m : FreeMove i s t) (hp : s.eng.phase = .idle)
    (hw : s.eng.WellFormed) : t.eng.WellFormed := by
  cases m with
  | crc _ _ ht | fpOk _ _ _ _ ht | fpErr _ _ _ _ ht => subst ht; exact hw.finish _
  | attached _ _ _ ht | released _ _ _ ht => subst ht; exact (hw.setAtt hp _).finish _
  | refused _ _ ht => subst ht; exact hw.refuse _

theorem exec_eng_wellFormed {i : Instr} {s t : State} (h : exec i s = .next t) (hw : s.eng.WellFormed) :
    t.eng.WellFormed := by
  obtain ⟨op, hi, m⟩ | ⟨-, hp, m⟩ := exec_next h
  · exact m.wellFormed hi hw
  · exact m.wellFormed hp hw

end Sys2Proof.Machine
end

section
/-! PROOFS. What a move leaves unchanged: the other engines and the turns (R27), with what a step makes of them, the
attachment (R17), the trace (R20), the mark (R19) and the registers and ports of a bus request (R62, R74). -/

namespace Sys2Proof.Machine

/-! ### The other engines and the turns (R27, R113) -/

theorem BusMove.others_turns_eq {op : BusOp} {i : Instr} {s t : State} (m : BusMove op i s t) :
    t.others = s.others ∧ t.turns = s.turns := by
  cases m <;> subst t <;> exact ⟨rfl, rfl⟩

theorem FreeMove.others_turns_eq {i : Instr} {s t : State} (m : FreeMove i s t) :
    t.others = s.others ∧ t.turns = s.turns := by
  cases m <;> subst t <;> exact ⟨rfl, rfl⟩

/-- Settles O50: every move replaces the moving engine only. -/
theorem otherEnginesAreUntouched : Obligations.OtherEnginesAreUntouched := fun _ _ _ h => by
  obtain ⟨_, _, m⟩ | ⟨_, _, m⟩ := exec_next h
  · exact m.others_turns_eq
  · exact m.others_turns_eq

/-- A step leaves the engines whose turn it is not as they are. -/
theorem step_others_turns {s t : State} (h : step s = .next t) :
    t.others = s.takeTurn.others ∧ t.turns = s.takeTurn.turns := by
  obtain ⟨_, _, rfl⟩ | ⟨_, _, _, _, _, _, h⟩ | ⟨_, _, _, h⟩ := step_next h
  · exact ⟨rfl, rfl⟩
  · exact otherEnginesAreUntouched _ s.takeTurn.popRequest _ h
  · exact otherEnginesAreUntouched _ _ _ h

/-! ### A step keeps every engine well formed -/

/-- A step moves the engine whose turn it is from well formed to well formed. -/
theorem step_eng_wellFormed {s t : State} (h : step s = .next t) (hw : s.takeTurn.eng.WellFormed) :
    t.eng.WellFormed := by
  obtain ⟨_, _, rfl⟩ | ⟨_, _, _, _, _, _, h⟩ | ⟨_, _, _, h⟩ := step_next h
  · exact hw
  · exact exec_eng_wellFormed h hw.popRequest
  · exact exec_eng_wellFormed h hw

/-- Taking a turn only exchanges engines. -/
theorem State.WellFormed.takeTurn {s : State} (hw : s.WellFormed) : s.takeTurn.WellFormed :=
  fun e he => hw e (s.takeTurn_engines_perm.mem_iff.1 he)

theorem State.wellFormed_iff {s : State} : s.WellFormed ↔ s.eng.WellFormed ∧ ∀ e ∈ s.others, e.WellFormed :=
  List.forall_mem_cons

/-- Settles O54: taking the turn permutes the engines, the one that moves makes one of the moves that keep it well
formed, and the others stay as they are. -/
theorem stepKeepsWellFormed : Obligations.StepKeepsWellFormed := fun s t hw h => by
  obtain ⟨heng, hothers⟩ := State.wellFormed_iff.1 hw.takeTurn
  refine State.wellFormed_iff.2 ⟨step_eng_wellFormed h heng, ?_⟩
  rwa [(step_others_turns h).1]

/-! ### Which engine a turn names (R113, log entry 5) -/

theorem State.focus_of_length_le {s : State} {k : Nat} (h : s.others.length ≤ k) : s.focus (k + 1) = s := by
  rw [State.focus, List.getElem?_eq_none h]

theorem State.focus_of_others_eq {s : State} {pre post : List Engine} {e : Engine} (h : s.others = pre ++ e :: post) :
    s.focus (pre.length + 1) = { s with eng := e, others := pre ++ s.eng :: post } := by
  simp [State.focus, h]

/-- A step keeps the number of engines: the turn permutes them and the move replaces one. -/
theorem step_engines_length {s t : State} (h : step s = .next t) : t.engines.length = s.engines.length := by
  calc t.engines.length = s.takeTurn.engines.length := by simp [State.engines, (step_others_turns h).1]
    _ = s.engines.length := s.takeTurn_engines_perm.length_eq

/-- Settles O60, by the cases of `State.focus`. -/
theorem turnsSelectTheMovingEngine : Obligations.TurnsSelectTheMovingEngine := fun s => by
  refine ⟨State.takeTurn_of_nil, fun ks h => ?_, fun k ks h hk => ?_, fun pre e post ks h ho => ?_, fun t h => ?_⟩
  · rw [State.takeTurn, h]; rfl
  · rw [State.takeTurn, h]
    dsimp only
    rw [State.focus_of_length_le hk]
  · rw [State.takeTurn, h]
    dsimp only
    rw [State.focus_of_others_eq ho]
  · obtain ⟨hothers, hturns⟩ := step_others_turns h
    exact ⟨hothers, hturns.trans (takeTurn_turns s), step_engines_length h⟩

/-! ### The attachment (R17, R74) -/

theorem BusMove.att_eq {op : BusOp} {i : Instr} {s t : State} (m : BusMove op i s t) : t.eng.att = s.eng.att := by
  cases m <;> subst t <;> rfl

/-- Settles O45: a bus request never writes the attachment, and of the bus-free requests only the two of the lifecycle
do. -/
theorem attachmentIsWrittenByLifecycleOnly : Obligations.AttachmentIsWrittenByLifecycleOnly := fun i s t h => by
  obtain ⟨_, _, m⟩ | ⟨_, _, m⟩ := exec_next h
  · exact .inl m.att_eq
  · cases m with
    | attached hd hi ha ht => subst ht; exact .inr (.inl ⟨hd, hi, ha, rfl⟩)
    | released hd hi ha ht => subst ht; exact .inr (.inr ⟨hd, hi, ha, rfl⟩)
    | crc _ _ ht | fpOk _ _ _ _ ht | fpErr _ _ _ _ ht | refused _ _ ht => subst ht; exact .inl rfl

/-! ### The trace (R20) -/

theorem FreeMove.trace_eq {i : Instr} {s t : State} (m : FreeMove i s t) : t.eng.trace = s.eng.trace := by
  cases m <;> subst t <;> rfl

/-- Settles O46: the moves in WR, SETTLE and RD append the event of their call, and no other move touches the trace. -/
theorem traceGrowsByInteractionsOnly : Obligations.TraceGrowsByInteractionsOnly := fun i s t h => by
  obtain ⟨op, hi, m⟩ | ⟨_, hp, m⟩ := exec_next h
  · cases m with
    | writeFailed _ f _ hp _ _ hx _ ht | wrote _ f hp _ _ hx _ ht => subst ht; rw [hp]; exact ⟨f, _, hx, rfl⟩
    | settledDone hp _ _ _ ht | settled hp _ _ _ ht => subst ht; rw [hp]; exact ⟨op, hi, rfl⟩
    | readFailed _ _ hp _ _ _ _ ht | readDone _ _ hp _ _ _ _ ht => subst ht; rw [hp]; exact ⟨op, _, hi, rfl⟩
    | notAttached hp _ ht | overlap _ hp _ _ ht | accepted _ hp _ _ ht | encRaised _ hp _ _ ht
    | encOverlap _ hp _ _ _ ht | encoded _ hp _ _ _ ht | checkFailed _ hp _ _ _ _ ht | checked _ hp _ _ _ _ ht
    | decoded _ _ hp _ _ _ _ ht => subst ht; rw [hp]; rfl
  · rw [hp]; exact m.trace_eq

/-! ### The refusal mark (R19, R108) -/

/-- Settles O47: the moves that refuse are the two refusals in IDLE, the overlap found in ENC, and the lifecycle's. -/
theorem refusalMarkIsSticky : Obligations.RefusalMarkIsSticky := fun i s t h => by
  obtain ⟨_, _, m⟩ | ⟨_, hp, m⟩ := exec_next h
  · cases m with
    | notAttached hp _ ht | overlap _ hp _ _ ht => subst ht; exact .inr ⟨_, rfl, rfl, rfl, rfl, rfl, hp⟩
    | encOverlap _ _ _ _ _ ht => subst ht; exact .inr ⟨_, rfl, rfl, rfl, rfl, rfl, rfl⟩
    | _ => subst t; exact .inl ⟨rfl, rfl⟩
  · cases m with
    | refused _ _ ht => subst ht; exact .inr ⟨_, rfl, rfl, rfl, rfl, rfl, hp⟩
    | _ => subst t; exact .inl ⟨rfl, rfl⟩

/-! ### The frame of a bus request (R62, R74) -/

namespace BusMove

variable {op : BusOp} {i : Instr} {s t : State}

theorem reqs_eq (m : BusMove op i s t) : t.eng.reqs = s.eng.reqs := by
  cases m <;> subst t <;> rfl

theorem writes_eq (m : BusMove op i s t) (hw : s.eng.phase ≠ .wr) : t.eng.writes = s.eng.writes := by
  cases m with
  | writeFailed _ _ _ hp | wrote _ _ hp => exact absurd hp hw
  | _ => subst t; rfl

theorem delays_eq (m : BusMove op i s t) (hs : s.eng.phase ≠ .settle) : t.eng.delays = s.eng.delays := by
  cases m with
  | settledDone hp | settled hp => exact absurd hp hs
  | _ => subst t; rfl

theorem reads_eq (m : BusMove op i s t) (hr : s.eng.phase ≠ .rd) : t.eng.reads = s.eng.reads := by
  cases m with
  | readFailed _ _ hp | readDone _ _ hp => exact absurd hp hr
  | _ => subst t; rfl

theorem trace_draws_eq (m : BusMove op i s t) (hw : s.eng.phase ≠ .wr) (hs : s.eng.phase ≠ .settle)
    (hr : s.eng.phase ≠ .rd) : t.eng.trace = s.eng.trace ∧ t.draws = s.draws := by
  cases m with
  | writeFailed _ _ _ hp | wrote _ _ hp => exact absurd hp hw
  | settledDone hp | settled hp => exact absurd hp hs
  | readFailed _ _ hp | readDone _ _ hp => exact absurd hp hr
  | _ => subst t; exact ⟨rfl, rfl⟩

theorem refused_reasons_eq (m : BusMove op i s t) (hi : s.eng.phase ≠ .idle) (he : s.eng.phase ≠ .enc) :
    t.eng.refused = s.eng.refused ∧ t.eng.reasons = s.eng.reasons := by
  cases m with
  | notAttached hp | overlap _ hp => exact absurd hp hi
  | encOverlap _ hp => exact absurd hp he
  | _ => subst t; exact ⟨rfl, rfl⟩

/-- Acceptance and refusal in IDLE answer nothing and leave the frames alone. -/
theorem resps_tx_rx_of_idle (m : BusMove op i s t) : s.eng.phase = .idle →
    t.eng.resps = s.eng.resps ∧ t.eng.tx = s.eng.tx ∧ t.eng.rx = s.eng.rx := by
  cases m with
  | notAttached _ _ ht | overlap _ _ _ _ ht | accepted _ _ _ _ ht => subst ht; exact fun _ => ⟨rfl, rfl, rfl⟩
  | _ => simp [*]

/-- A move within the operation answers nothing, and writes TX in ENC and RX in RD only. -/
theorem resps_op_tx_rx_of_busy (m : BusMove op i s t) : s.eng.phase ≠ .idle → t.eng.phase ≠ .idle →
    t.eng.resps = s.eng.resps ∧ t.eng.op = s.eng.op ∧
    (s.eng.phase ≠ .enc → t.eng.tx = s.eng.tx) ∧ (s.eng.phase ≠ .rd → t.eng.rx = s.eng.rx) := by
  cases m with
  | encoded _ hp _ _ _ ht => subst ht; exact fun _ _ => ⟨rfl, rfl, absurd hp, fun _ => rfl⟩
  | readDone _ _ hp _ _ _ _ ht => subst ht; exact fun _ _ => ⟨rfl, rfl, fun _ => rfl, absurd hp⟩
  | wrote _ _ _ _ _ _ _ ht | settled _ _ _ _ ht | checked _ _ _ _ _ _ ht =>
    subst ht; exact fun _ _ => ⟨rfl, rfl, fun _ => rfl, fun _ => rfl⟩
  | _ => simp [*]

end BusMove

/-- Settles O51, field by field. -/
theorem busRequestFrame : Obligations.BusRequestFrame := fun i op s t hi h => by
  obtain ⟨_, _, m⟩ | ⟨hnone, _⟩ := exec_next h
  · exact ⟨m.others_turns_eq.1, m.others_turns_eq.2, m.att_eq, m.reqs_eq, m.writes_eq, m.delays_eq, m.reads_eq,
      m.trace_draws_eq, m.refused_reasons_eq, m.resps_tx_rx_of_idle, m.resps_op_tx_rx_of_busy⟩
  · cases hi.symm.trans hnone

end Sys2Proof.Machine
end

section
/-! PROOFS. Requests and their encoding (R44, R45): the decoder reads every encoding back, reads nothing else, and accepts
exactly the requests with R45's operand fields. -/

namespace Sys2Proof

/-! ### Reading an encoding back -/

/-- The laws of each constructor, for every request. -/
theorem Laws.RequestEncoding.statement_all : ∀ i : Instr, Statement i
  | .init => init
  | .measure => measure
  | .getbase => getbase
  | .setbase a b => setbase a b
  | .getbase2 => getbase2
  | .setbase2 w => setbase2 w
  | .measraw => measraw
  | .selftest => selftest
  | .sethum h => sethum h
  | .getfeat => getfeat
  | .getserial => getserial
  | .crc8 data => crc8 data
  | .fpenc h => fpenc h
  | .reserved => reserved
  | .attach hd => attach hd
  | .release => release

@[simp] theorem decode_encode (i : Instr) : decode (encode i) = .ok i :=
  (Laws.RequestEncoding.statement_all i).2.2

theorem decode_of_encode_eq {i : Instr} {r : Request} (h : encode i = r) : decode r = .ok i :=
  h ▸ decode_encode i

@[simp] theorem wellFormed_encode (i : Instr) : (encode i).wellFormed = true :=
  (Laws.RequestEncoding.statement_all i).1

/-- Settles O4: each request of the list is the encoding of the instruction it decodes to. -/
theorem selectorsSelectTheirRequests : Obligations.SelectorsSelectTheirRequests :=
  ⟨decode_encode .init, decode_encode .measure, decode_encode .getbase, fun a b => decode_encode (.setbase a b),
    decode_encode .getbase2, fun w => decode_encode (.setbase2 w), decode_encode .measraw, decode_encode .selftest,
    fun h => decode_encode (.sethum h), decode_encode .getfeat, decode_encode .getserial,
    fun data => decode_encode (.crc8 data), fun h => decode_encode (.fpenc h), decode_encode .reserved,
    fun hd => decode_encode (.attach hd), decode_encode .release⟩

/-! ### Nothing else is read: for each shape of operands in R45, what decodes is the encoding of the answer -/

section
variable {r : Request} {i : Instr} {n : Nat}

theorem Request.eq_mk {fields : List Field} (hs : r.opsel.toNat = n) (hf : r.fields = fields) :
    r = ⟨BitVec.ofNat 4 n, fields⟩ := by
  cases r
  subst hs hf
  simp

theorem encode_of_decodeNoOperand {j : Instr} (he : encode j = ⟨BitVec.ofNat 4 n, []⟩) (hs : r.opsel.toNat = n)
    (h : decodeNoOperand r j = .ok i) : encode i = r := by
  unfold decodeNoOperand at h
  split at h
  · cases h; exact he.trans (Request.eq_mk hs ‹_›).symm
  · cases h

theorem encode_of_decodeWord {mk : Word → Instr} (he : ∀ w, encode (mk w) = ⟨BitVec.ofNat 4 n, [.word w]⟩)
    (hs : r.opsel.toNat = n) (h : decodeWord r mk = .ok i) : encode i = r := by
  unfold decodeWord at h
  split at h
  · cases h; exact (he _).trans (Request.eq_mk hs ‹_›).symm
  · cases h

theorem encode_of_decodeTwoWords {mk : Word → Word → Instr}
    (he : ∀ a b, encode (mk a b) = ⟨BitVec.ofNat 4 n, [.word a, .word b]⟩)
    (hs : r.opsel.toNat = n) (h : decodeTwoWords r mk = .ok i) : encode i = r := by
  unfold decodeTwoWords at h
  split at h
  · cases h; exact (he _ _).trans (Request.eq_mk hs ‹_›).symm
  · cases h

theorem encode_of_decodeHumidity {mk : Humidity → Instr}
    (he : ∀ q, encode (mk q) = ⟨BitVec.ofNat 4 n, [.humidity q]⟩)
    (hs : r.opsel.toNat = n) (h : decodeHumidity r mk = .ok i) : encode i = r := by
  unfold decodeHumidity at h
  split at h
  · cases h; exact (he _).trans (Request.eq_mk hs ‹_›).symm
  · cases h

theorem encode_of_decodeBytes {mk : List Byte → Instr}
    (he : ∀ data, encode (mk data) = ⟨BitVec.ofNat 4 n, [.bytes data]⟩)
    (hs : r.opsel.toNat = n) (h : decodeBytes r mk = .ok i) : encode i = r := by
  unfold decodeBytes at h
  split at h
  · cases h; exact (he _).trans (Request.eq_mk hs ‹_›).symm
  · cases h

theorem encode_of_decodeHandle {mk : Handle → Instr}
    (he : ∀ hd, encode (mk hd) = ⟨BitVec.ofNat 4 n, [.handle hd]⟩)
    (hs : r.opsel.toNat = n) (h : decodeHandle r mk = .ok i) : encode i = r := by
  unfold decodeHandle at h
  split at h
  · cases h; exact (he _).trans (Request.eq_mk hs ‹_›).symm
  · cases h

/-- What decodes is the encoding of what it decodes to. Case `h_1` is the arm of selector 0x0, and so on up to `h_16` for
0xF; they are grouped by the shape of the operands. -/
theorem encode_of_decode (h : decode r = .ok i) : encode i = r := by
  unfold decode at h
  split at h
  case h_1 | h_2 | h_3 | h_5 | h_7 | h_8 | h_10 | h_11 | h_14 | h_16 => exact encode_of_decodeNoOperand rfl ‹_› h
  case h_4 => exact encode_of_decodeTwoWords (fun _ _ => rfl) ‹_› h
  case h_6 => exact encode_of_decodeWord (fun _ => rfl) ‹_› h
  case h_9 | h_13 => exact encode_of_decodeHumidity (fun _ => rfl) ‹_› h
  case h_12 => exact encode_of_decodeBytes (fun _ => rfl) ‹_› h
  case h_15 => exact encode_of_decodeHandle (fun _ => rfl) ‹_› h
  case h_17 => cases h

end

/-- Settles O5: the two directions are `encode_of_decode` and `decode_of_encode_eq`. -/
theorem decodeInvertsEncode : Obligations.DecodeInvertsEncode := fun _ _ =>
  ⟨encode_of_decode, decode_of_encode_eq⟩

/-! ### The requests that decode (R45) -/

/-- A selector for which R45 lists no operand field decodes without any. -/
theorem exists_decode_of_zeroFields_eq_nil {opsel : BitVec 4} (h : zeroFields opsel = []) :
    ∃ i, decode ⟨opsel, []⟩ = .ok i := by
  have hok : ∀ o : BitVec 4, zeroFields o = [] → (decode ⟨o, []⟩).isOk = true := by decide
  specialize hok opsel h
  cases hd : decode ⟨opsel, []⟩ with
  | ok i => exact ⟨i, rfl⟩
  | error e => rw [hd] at hok; cases hok

/-- One case for each selector with operands in R45, where the request is the encoding of an instruction, and one for all
the others. -/
theorem exists_decode_of_wellFormed {r : Request} (h : r.wellFormed = true) : ∃ i, decode r = .ok i := by
  unfold Request.wellFormed at h
  split at h
  next hs =>
    split at h
    next a b hf => exact ⟨.setbase a b, decode_of_encode_eq (Request.eq_mk hs hf).symm⟩
    next => cases h
  next hs =>
    split at h
    next w hf => exact ⟨.setbase2 w, decode_of_encode_eq (Request.eq_mk hs hf).symm⟩
    next => cases h
  next hs =>
    split at h
    next q hf => exact ⟨.sethum q, decode_of_encode_eq (Request.eq_mk hs hf).symm⟩
    next => cases h
  next hs =>
    split at h
    next data hf => exact ⟨.crc8 data, decode_of_encode_eq (Request.eq_mk hs hf).symm⟩
    next => cases h
  next hs =>
    split at h
    next q hf => exact ⟨.fpenc q, decode_of_encode_eq (Request.eq_mk hs hf).symm⟩
    next => cases h
  next hs =>
    split at h
    next hd hf => exact ⟨.attach hd, decode_of_encode_eq (Request.eq_mk hs hf).symm⟩
    next => cases h
  next =>
    obtain ⟨opsel, fields⟩ := r
    obtain rfl : fields = [] := List.isEmpty_iff.mp h
    exact exists_decode_of_zeroFields_eq_nil (by simp [zeroFields])

theorem zeroFields_wellFormed : ∀ opsel : BitVec 4, Request.wellFormed ⟨opsel, zeroFields opsel⟩ = true := by
  decide

/-- Settles O6: what decodes is an encoding, which is well formed; and each selector is well formed with zero operands. -/
theorem wellFormedRequestsDecode : Obligations.WellFormedRequestsDecode :=
  ⟨fun _ => ⟨exists_decode_of_wellFormed, fun ⟨i, h⟩ => encode_of_decode h ▸ wellFormed_encode i⟩,
    fun opsel => ⟨zeroFields opsel, exists_decode_of_wellFormed (zeroFields_wellFormed opsel)⟩⟩

end Sys2Proof
end

section
/-! PROOFS. The wire formats of R48, R49 and R53: triplets, write frames and the serial identifier. -/

namespace Sys2Proof.Machine

/-! ### Triplets (R48, R93, R94) -/

theorem triplet_append (w : Word) (rest : Frame) :
    triplet w ++ rest = hi8 w :: lo8 w :: crc8 (be w) :: rest := rfl

@[simp] theorem frameValid_triplet_append (w : Word) (rest : Frame) :
    frameValid (triplet w ++ rest) = frameValid rest := by
  rw [triplet_append, frameValid]
  simp [be]

@[simp] theorem frameWords_triplet_append (w : Word) (rest : Frame) :
    frameWords (triplet w ++ rest) = w :: frameWords rest := by
  rw [triplet_append, frameWords, w16_hi8_lo8]

/-- Settles O39: the two bytes of the word are the quotient and the remainder by 256. -/
theorem tripletCarriesItsWord : Obligations.TripletCarriesItsWord := fun w rest => by
  refine ⟨?_, frameValid_triplet_append w rest, frameWords_triplet_append w rest⟩
  rw [triplet, be_eq_ofNat]
  rfl

/-! ### Write frames (R49) -/

/-- Settles O42: the command and one triplet for each operand word. -/
theorem writeFramesHaveTheirLength : Obligations.WriteFramesHaveTheirLength :=
  fun _ _ _ => length_encodeTx

/-! ### The serial identifier (R53) -/

/-- Four words one after the other are the four 16-bit fields of the value. -/
theorem extract_append_words (a b c d : Word) :
    (a ++ b ++ c ++ d).extractLsb' 48 16 = a ∧ (a ++ b ++ c ++ d).extractLsb' 32 16 = b ∧
    (a ++ b ++ c ++ d).extractLsb' 16 16 = c ∧ (a ++ b ++ c ++ d).extractLsb' 0 16 = d := by
  refine ⟨?_, ?_, ?_, BitVec.extractLsb'_append_eq_right⟩
  · rw [BitVec.extractLsb'_append_eq_of_le (by decide), BitVec.extractLsb'_append_eq_of_le (by decide)]
    exact BitVec.extractLsb'_append_eq_left
  · rw [BitVec.extractLsb'_append_eq_of_le (by decide), BitVec.extractLsb'_append_eq_of_le (by decide)]
    exact BitVec.extractLsb'_append_eq_right
  · rw [BitVec.extractLsb'_append_eq_of_le (by decide)]
    exact BitVec.extractLsb'_append_eq_right

/-- Settles O41: the value is the zero word and the frame's three words, one after the other. -/
theorem serialHoldsTheThreeWords : Obligations.SerialHoldsTheThreeWords := fun d0 d1 _ d2 d3 _ d4 d5 _ =>
  ⟨0#16 ++ w16 d0 d1 ++ w16 d2 d3 ++ w16 d4 d5, rfl, extract_append_words 0#16 _ _ _⟩

end Sys2Proof.Machine
end

section
/-! PROOFS. Requests refused in IDLE (R55, R78). -/

namespace Sys2Proof.Machine

/-- An idle engine accepts or refuses a bus request, whichever it is (R61). -/
theorem exec_bus_idle {i : Instr} {op : BusOp} {s : State} (hi : busOp? i = some op) (hp : s.eng.phase = .idle) :
    exec i s = acceptBus i s := by
  rw [exec_bus hi]
  split
  · simp [runWriteOnly, hp]
  · simp [runReading, hp]

theorem acceptBus_detached {i : Instr} {s : State} (ha : s.eng.att = .detached) :
    acceptBus i s = refuse .notAttached s := by
  simp [acceptBus, ha]

theorem exec_reserved_idle {s : State} (hp : s.eng.phase = .idle) :
    exec .reserved s = refuse .reservedSelector s :=
  whenIdle_idle hp

theorem exec_release_detached {s : State} (hp : s.eng.phase = .idle) (ha : s.eng.att = .detached) :
    exec .release s = refuse .notAttached s := by
  simp [exec, execRelease, whenIdle_idle hp, ha]

theorem exec_attach_attached {s : State} {hd : Handle} (hd' : Handle) (hp : s.eng.phase = .idle)
    (ha : s.eng.att = .attached hd) : exec (.attach hd') s = refuse .alreadyAttached s := by
  simp [exec, execAttach, whenIdle_idle hp, ha]

/-- Settles O9: each of these requests is `refuse` with its reason, which sets the mark and notes the reason. -/
theorem meaninglessRequestsAreRefused : Obligations.MeaninglessRequestsAreRefused := fun _ hp =>
  ⟨exec_reserved_idle hp,
    fun ha => ⟨fun _ _ hi => (exec_bus_idle hi hp).trans (acceptBus_detached ha), exec_release_detached hp ha⟩,
    fun _ hd' ha => exec_attach_attached hd' hp ha⟩

end Sys2Proof.Machine
end

section
/-! PROOFS. Every move is made: the phases of R62 one by one, each bus move as the step of its request, the calls that are
never answered (R69), and the requests the port gives no step (R60). -/

namespace Sys2Proof.Machine

section
variable {i : Instr} {op : BusOp} {s t : State} {f : Frame}

/-! ### The phase in progress takes its step (R62, R63) -/

theorem exec_enc (hi : busOp? i = some op) (hp : s.eng.phase = .enc) (ho : s.eng.op = some i) :
    exec i s = encPhase op i s := by
  rw [exec_bus hi]
  split
  · rw [runWriteOnly, hp]; exact inProgress_self ho
  · rw [runReading, hp]; exact inProgress_self ho

theorem exec_wr (hi : busOp? i = some op) (hp : s.eng.phase = .wr) (ho : s.eng.op = some i) :
    exec i s = wrPhase s := by
  rw [exec_bus hi]
  split
  · rw [runWriteOnly, hp]; exact inProgress_self ho
  · rw [runReading, hp]; exact inProgress_self ho

theorem exec_settle_writeOnly (hi : busOp? i = some op) (hn : rxLen op = 0) (hp : s.eng.phase = .settle)
    (ho : s.eng.op = some i) : exec i s = settleThenReturn op s := by
  rw [exec_bus hi, if_pos hn, runWriteOnly, hp]; exact inProgress_self ho

theorem exec_settle_reading (hi : busOp? i = some op) (hn : rxLen op ≠ 0) (hp : s.eng.phase = .settle)
    (ho : s.eng.op = some i) : exec i s = settleThenRead op s := by
  rw [exec_bus hi, if_neg hn, runReading, hp]; exact inProgress_self ho

theorem exec_rd (hi : busOp? i = some op) (hn : rxLen op ≠ 0) (hp : s.eng.phase = .rd) (ho : s.eng.op = some i) :
    exec i s = rdPhase op s := by
  rw [exec_bus hi, if_neg hn, runReading, hp]; exact inProgress_self ho

theorem exec_chk (hi : busOp? i = some op) (hn : rxLen op ≠ 0) (hp : s.eng.phase = .chk) (ho : s.eng.op = some i) :
    exec i s = chkPhase s := by
  rw [exec_bus hi, if_neg hn, runReading, hp]; exact inProgress_self ho

theorem exec_dec (hi : busOp? i = some op) (hn : rxLen op ≠ 0) (hp : s.eng.phase = .dec) (ho : s.eng.op = some i) :
    exec i s = decPhase (decodeRx op) s := by
  rw [exec_bus hi, if_neg hn, runReading, hp]; exact inProgress_self ho

/-! ### Calls, answered and not (R65 to R69) -/

theorem busWrite_answer {k : WriteOutcome → State → Result} {hd : Handle} {o : WriteOutcome}
    (ha : s.eng.att = .attached hd) (hr : s.writeReply hd = .answer o) :
    busWrite f k s = k o (s.afterWrite f o) := by
  simp [busWrite, ha, hr]

theorem busWrite_silent {k : WriteOutcome → State → Result} {hd : Handle} (ha : s.eng.att = .attached hd)
    (hr : s.writeReply hd = .silent) : busWrite f k s = .fault (.unanswered .busWrite) := by
  simp [busWrite, ha, hr]

theorem delayFor_answer {d : Delay} {k : State → Result} (hr : s.delayReply = .answer ()) :
    delayFor d k s = k (s.afterDelay d) := by
  simp [delayFor, hr]

theorem delayFor_silent {d : Delay} {k : State → Result} (hr : s.delayReply = .silent) :
    delayFor d k s = .fault (.unanswered .delay) := by
  simp [delayFor, hr]

theorem busRead_answer {n : Nat} {k : ReadOutcome → State → Result} {hd : Handle} {o : ReadOutcome}
    (ha : s.eng.att = .attached hd) (hr : s.readReply hd n = .answer o) :
    busRead n k s = k o (s.afterRead n o) := by
  simp [busRead, ha, hr]

theorem busRead_silent {n : Nat} {k : ReadOutcome → State → Result} {hd : Handle} (ha : s.eng.att = .attached hd)
    (hr : s.readReply hd n = .silent) : busRead n k s = .fault (.unanswered .busRead) := by
  simp [busRead, ha, hr]

/-- The converse of `exec_next` for bus requests: each move is the step of its request. -/
theorem BusMove.exec_eq (m : BusMove op i s t) (hi : busOp? i = some op) : exec i s = .next t := by
  cases m with
  | notAttached hp ha ht => subst ht; rw [exec_bus_idle hi hp, acceptBus_detached ha]; rfl
  | overlap hd hp ha hb ht => subst ht; rw [exec_bus_idle hi hp]; simp [acceptBus, ha, hb, refuse]
  | accepted hd hp ha hb ht => subst ht; rw [exec_bus_idle hi hp]; simp [acceptBus, ha, hb]
  | encRaised k hp ho he ht => subst ht; rw [exec_enc hi hp ho, encPhase, he]; rfl
  | encOverlap f hp ho he hb ht => subst ht; rw [exec_enc hi hp ho]; simp [encPhase, he, hb, refuseInEnc]
  | encoded f hp ho he hb ht => subst ht; rw [exec_enc hi hp ho]; simp [encPhase, he, hb]
  | writeFailed hd f e hp ho ha hx hr ht =>
    subst ht; rw [exec_wr hi hp ho, wrPhase, hx]; exact busWrite_answer ha hr
  | wrote hd f hp ho ha hx hr ht => subst ht; rw [exec_wr hi hp ho, wrPhase, hx]; exact busWrite_answer ha hr
  | settledDone hp ho hn hr ht => subst ht; rw [exec_settle_writeOnly hi hn hp ho]; exact delayFor_answer hr
  | settled hp ho hn hr ht => subst ht; rw [exec_settle_reading hi hn hp ho]; exact delayFor_answer hr
  | readFailed hd e hp ho hn ha hr ht => subst ht; rw [exec_rd hi hn hp ho]; exact busRead_answer ha hr
  | readDone hd bs hp ho hn ha hr ht => subst ht; rw [exec_rd hi hn hp ho]; exact busRead_answer ha hr
  | checkFailed f hp ho hn hx hv ht => subst ht; rw [exec_chk hi hn hp ho]; simp [chkPhase, hx, hv, raise]
  | checked f hp ho hn hx hv ht => subst ht; rw [exec_chk hi hn hp ho]; simp [chkPhase, hx, hv]
  | decoded f v hp ho hn hx hv ht => subst ht; rw [exec_dec hi hn hp ho]; simp [decPhase, hx, hv, complete]

/-! ### A request other than the one in progress (R60) -/

theorem inProgress_other {k : State → Result} (ho : s.eng.op ≠ some i) : inProgress i k s = .refused .portBusy :=
  if_neg ho

theorem whenIdle_busy {k : State → Result} (hp : s.eng.phase ≠ .idle) : whenIdle k s = .refused .portBusy := by
  unfold whenIdle
  split
  · exact absurd ‹_› hp
  · rfl

theorem runWriteOnly_other (hp : s.eng.phase ≠ .idle) (ho : s.eng.op ≠ some i) :
    runWriteOnly op i s = .refused .portBusy := by
  unfold runWriteOnly
  split
  · exact absurd ‹_› hp
  all_goals exact inProgress_other ho

theorem runReading_other {dec : Frame → Option Value} (hp : s.eng.phase ≠ .idle) (ho : s.eng.op ≠ some i) :
    runReading op i dec s = .refused .portBusy := by
  unfold runReading
  split
  · exact absurd ‹_› hp
  all_goals exact inProgress_other ho

theorem exec_bus_other (hi : busOp? i = some op) (hp : s.eng.phase ≠ .idle) (ho : s.eng.op ≠ some i) :
    exec i s = .refused .portBusy := by
  rw [exec_bus hi]
  split
  · exact runWriteOnly_other hp ho
  · exact runReading_other hp ho

end

/-- Settles O8: the bus-free requests are served in IDLE only, and in every other phase a bus request is served only while
it is the one in progress. -/
theorem secondRequestGetsNoStep : Obligations.SecondRequestGetsNoStep := fun i s hp ho => by
  cases i with
  | crc8 | fpenc | reserved | attach | release =>
    simp only [exec, execCrc8, execFpenc, execReserved, execAttach, execRelease, whenIdle_busy hp]
  | _ => exact exec_bus_other rfl hp ho

end Sys2Proof.Machine
end

section
/-! PROOFS. The steps of a bus request, phase by phase (R62): in each, the next state is the one of the move it makes. -/

namespace Sys2Proof.Machine

/-- Settles O7: a ready engine makes the accepting move. -/
theorem busRequestIsAccepted : Obligations.BusRequestIsAccepted := fun _ _ _ hd hi ⟨hp, ha, hb⟩ =>
  (BusMove.accepted hd hp ha hb rfl).exec_eq hi

/-! ### ENC (R64) -/

theorem encodeTx_sethum_error {op : BusOp} {h : Humidity} {k : ErrKind} (hk : fpenc h = .error k) :
    encodeTx op (.sethum h) = .error k := by
  simp [encodeTx, hk]

theorem encodeTx_sethum_ok {op : BusOp} {h : Humidity} {q : Word} (hq : fpenc h = .ok q) :
    encodeTx op (.sethum h) = .ok (cmd op ++ triplet q) := by
  simp [encodeTx, hq]

/-- An operation whose write frame has two bytes sends its command alone (R46, R47). -/
theorem encodeTx_of_txLen_two {i : Instr} {op : BusOp} (hi : busOp? i = some op) (hl : txLen op = 2) :
    encodeTx op i = .ok (cmd op) := by
  cases i with
  | setbase | setbase2 | sethum => cases hi; cases hl
  | _ => rfl

/-- Settles O11: the frame is `encodeTx`'s, which is an error only where fpenc's is. -/
theorem encodingStepBuildsTheFrame : Obligations.EncodingStepBuildsTheFrame := fun s hp => by
  refine ⟨fun k h ho hk => ?_,
    fun hb => ⟨fun a b ho => ?_, fun w ho => ?_, fun h q ho hq => ?_, fun i op ho hi hl => ?_⟩⟩
  · cases fpenc_error hk
    exact (BusMove.encRaised _ hp ho (encodeTx_sethum_error hk) rfl).exec_eq rfl
  · exact (BusMove.encoded _ hp ho rfl hb rfl).exec_eq rfl
  · exact (BusMove.encoded _ hp ho rfl hb rfl).exec_eq rfl
  · exact (BusMove.encoded _ hp ho (encodeTx_sethum_ok hq) hb rfl).exec_eq rfl
  · exact (BusMove.encoded _ hp ho (encodeTx_of_txLen_two hi hl) hb rfl).exec_eq hi

/-! ### WR, SETTLE and RD (R65 to R71) -/

/-- Settles O12: an answered write makes one of the two moves of WR. -/
theorem writeStepFollowsTheAnswer : Obligations.WriteStepFollowsTheAnswer := fun i op s hd f hi hp ho hx ha => by
  refine ⟨fun hr => ?_, fun e hr => ?_, fun hr => ?_⟩
  · exact (BusMove.wrote hd f hp ho ha hx hr rfl).exec_eq hi
  · exact (BusMove.writeFailed hd f e hp ho ha hx hr rfl).exec_eq hi
  · rw [exec_wr hi hp ho, wrPhase, hx]
    exact busWrite_silent ha hr

/-- Settles O13: a completed delay makes one of the two moves of SETTLE, by whether the operation reads. -/
theorem settleStepWaitsTheDelay : Obligations.SettleStepWaitsTheDelay := fun i op s hi hp ho => by
  refine ⟨fun hr hn => ?_, fun hr hn => ?_, fun hr => ?_⟩
  · exact (BusMove.settledDone hp ho hn hr rfl).exec_eq hi
  · exact (BusMove.settled hp ho hn hr rfl).exec_eq hi
  · by_cases hn : rxLen op = 0
    · rw [exec_settle_writeOnly hi hn hp ho]
      exact delayFor_silent hr
    · rw [exec_settle_reading hi hn hp ho]
      exact delayFor_silent hr

/-- Settles O14: an answered read makes one of the two moves of RD, and `readReply_rOk` says its length. -/
theorem readStepFollowsTheAnswer : Obligations.ReadStepFollowsTheAnswer := fun i op s hd hi hn hp ho ha => by
  refine ⟨fun bs hr => ⟨readReply_rOk hr, ?_⟩, fun e hr => ?_, fun hr => ?_⟩
  · exact (BusMove.readDone hd bs hp ho hn ha hr rfl).exec_eq hi
  · exact (BusMove.readFailed hd e hp ho hn ha hr rfl).exec_eq hi
  · rw [exec_rd hi hn hp ho]
    exact busRead_silent ha hr

/-! ### CHK and DEC (R72, R80 to R89) -/

/-- Settles O15: the two moves of CHK. -/
theorem checkStepRejectsBadFrames : Obligations.CheckStepRejectsBadFrames := fun _ _ _ rx hi hn hp ho hx =>
  ⟨fun hv => (BusMove.checkFailed rx hp ho hn hx hv rfl).exec_eq hi,
    fun hv => (BusMove.checked rx hp ho hn hx hv rfl).exec_eq hi⟩

/-- The end of an operation that adds no event. -/
theorem Engine.finish_eq_after (e : Engine) (r : Response) : e.finish r = e.after [] r := by
  simp [Engine.finish, Engine.after, Engine.toIdle]

theorem exec_dec_answers {i : Instr} {op : BusOp} {s : State} {f : Frame} {v : Value} (hp : s.eng.phase = .dec)
    (hx : s.eng.rx = some f) (ho : s.eng.op = some i) (hi : busOp? i = some op) (hn : rxLen op ≠ 0)
    (hv : decodeRx op f = some v) : exec i s = .next { s with eng := s.eng.after [] (.ok v) } := by
  rw [(BusMove.decoded f v hp ho hn hx hv rfl).exec_eq hi, Engine.finish_eq_after]
  rfl

/-- Settles O16: at each length the operations' decodings compute on the bytes. -/
theorem decodeStepAnswersTheValue : Obligations.DecodeStepAnswersTheValue := fun s d0 d1 c0 d2 d3 c1 d4 d5 c2 hp => by
  refine ⟨fun hx => ⟨fun ho => ?_, fun ho => ?_⟩, fun hx => ⟨fun ho => ?_, fun ho => ?_, fun ho => ?_, fun ho => ?_⟩,
    fun hx ho => ?_⟩
  all_goals exact exec_dec_answers hp hx ho rfl (by decide) rfl

/-! ### How an operation ends (R74, R106, R108) -/

theorem BusMove.one_response_or_none {op : BusOp} {i : Instr} {s t : State} (m : BusMove op i s t) :
    (∃ r, t.eng.resps = s.eng.resps ++ [r] ∧
      t.eng.phase = .idle ∧ t.eng.op = none ∧ t.eng.tx = none ∧ t.eng.rx = none) ∨
    (t.eng.resps = s.eng.resps ∧
      (t.eng.phase ≠ .idle ∨ (t.eng.refused = true ∧ ∃ r, t.eng.reasons = s.eng.reasons ++ [r]))) := by
  cases m with
  | notAttached _ _ ht | overlap _ _ _ _ ht | encOverlap _ _ _ _ _ ht =>
    subst ht; exact .inr ⟨rfl, .inr ⟨rfl, _, rfl⟩⟩
  | accepted _ _ _ _ ht | encoded _ _ _ _ _ ht | wrote _ _ _ _ _ _ _ ht | settled _ _ _ _ ht
  | readDone _ _ _ _ _ _ _ ht | checked _ _ _ _ _ _ ht => subst ht; exact .inr ⟨rfl, .inl (by simp)⟩
  | encRaised _ _ _ _ ht | writeFailed _ _ _ _ _ _ _ _ ht | settledDone _ _ _ _ ht | readFailed _ _ _ _ _ _ _ ht
  | checkFailed _ _ _ _ _ _ ht | decoded _ _ _ _ _ _ _ ht =>
    subst ht; exact .inl ⟨_, rfl, rfl, rfl, rfl, rfl⟩

/-- Settles O48: of the moves of a bus request three refuse, six go on to a phase of the operation and six end it; a
bus-free request is refused or ends. -/
theorem operationEndsInOneResponse : Obligations.OperationEndsInOneResponse := fun i s t h => by
  obtain ⟨_, _, m⟩ | ⟨_, _, m⟩ := exec_next h
  · exact m.one_response_or_none
  · cases m with
    | refused _ _ ht => subst ht; exact .inr ⟨rfl, .inr ⟨rfl, _, rfl⟩⟩
    | _ => subst t; exact .inl ⟨_, rfl, rfl, rfl, rfl, rfl⟩

end Sys2Proof.Machine
end

section
/-! PROOFS. The lifecycle requests (R76, R77). -/

namespace Sys2Proof.Machine

theorem exec_attach_detached {s : State} (hd : Handle) (hp : s.eng.phase = .idle) (ha : s.eng.att = .detached) :
    exec (.attach hd) s = .next (s.withEng ({ s.eng with att := .attached hd }.after [] (.ok .unit))) := by
  simp [exec, execAttach, whenIdle_idle hp, ha, complete, Engine.finish_eq_after]

theorem exec_release_attached {s : State} {hd : Handle} (hp : s.eng.phase = .idle) (ha : s.eng.att = .attached hd) :
    exec .release s = .next (s.withEng ({ s.eng with att := .detached }.after [] (.ok (.handle hd)))) := by
  simp [exec, execRelease, whenIdle_idle hp, ha, complete, Engine.finish_eq_after]

/-- Settles O30: the two arms of ATTACH in IDLE. -/
theorem attachTakesTheHandle : Obligations.AttachTakesTheHandle := fun hd _ hp =>
  ⟨exec_attach_detached hd hp, fun _ => exec_attach_attached hd hp⟩

/-- Settles O31: the two arms of RELEASE in IDLE. -/
theorem releaseReturnsTheHandle : Obligations.ReleaseReturnsTheHandle := fun _ hp =>
  ⟨fun _ => exec_release_attached hp, exec_release_detached hp⟩

end Sys2Proof.Machine
end

section
/-! PROOFS. What a step runs (R60 to R63), and when it stops (R60, R69). -/

namespace Sys2Proof.Machine

/-! ### The request a step runs -/

theorem step_quiet {s : State} (hp : s.takeTurn.eng.phase = .idle) (hr : s.takeTurn.eng.reqs = []) :
    step s = .next s.takeTurn := by
  simp [step, fetch, hp, hr]

theorem step_malformed {s : State} {r : Request} {rs : List Request} {e : DecodeError}
    (hp : s.takeTurn.eng.phase = .idle) (hr : s.takeTurn.eng.reqs = r :: rs) (hd : decode r = .error e) :
    step s = .refused (.operandFields e) := by
  simp [step, fetch, hp, hr, hd]

theorem State.popRequest_of_cons {s : State} {r : Request} {rs : List Request} (hr : s.eng.reqs = r :: rs) :
    s.popRequest = { s with eng := { s.eng with reqs := rs } } := by
  rw [State.popRequest, hr]; rfl

/-- Settles O2: the three answers of `fetch` that do not stop the step. -/
theorem stepRunsTheRequest : Obligations.StepRunsTheRequest := fun s => by
  refine ⟨fun r rs i hp hr hd => ?_, fun i => step_busy, step_quiet⟩
  rw [step_idle hp hr hd, State.popRequest_of_cons hr]

/-- Taking the turn and the request undoes the presenting, but for the idle engine. -/
theorem State.present_takeTurn_popRequest (s : State) (r : Request) :
    (s.present r).takeTurn.popRequest = { s with eng := s.eng.toIdle } := rfl

theorem decodeTableWord_eq_some {nbits w : Nat} {i : Instr} (h : decodeTableWord nbits w = some i) :
    ∃ r, tableRequest nbits w = some r ∧ decode r = .ok i := by
  unfold decodeTableWord at h
  split at h
  · cases h
  · next r hr =>
    cases hd : decode r with
    | ok j => rw [hd] at h; cases h; exact ⟨r, hr, hd⟩
    | error e => rw [hd] at h; cases h

/-- Settles O3: the presented request is at the head of the port of an idle engine whose turn it is. -/
theorem fetchedWordRunsNext : Obligations.FetchedWordRunsNext := fun s nbits w i h => by
  obtain ⟨r, hr, hd⟩ := decodeTableWord_eq_some h
  have hw : s.withFetchWord nbits w = s.present r := by rw [State.withFetchWord, hr]
  rw [hw, step_idle rfl rfl hd, State.present_takeTurn_popRequest]

/-! ### Steps that go on or wait for an answer -/

/-- The step answers a next state, or its call is never answered (R69). -/
def NextOrUnanswered (x : Result) : Prop := (∃ t, x = .next t) ∨ ∃ c, x = .fault (.unanswered c)

namespace NextOrUnanswered

theorem of_next (t : State) : NextOrUnanswered (.next t) := .inl ⟨t, rfl⟩

theorem of_unanswered (c : Call) : NextOrUnanswered (.fault (.unanswered c)) := .inr ⟨c, rfl⟩

theorem busWrite {k : WriteOutcome → State → Result} {f : Frame} {s : State} (ha : s.eng.att ≠ .detached)
    (hk : ∀ o t, NextOrUnanswered (k o t)) : NextOrUnanswered (busWrite f k s) := by
  unfold Machine.busWrite
  split
  · exact absurd ‹_› ha
  · split
    · exact of_unanswered _
    · exact hk _ _

theorem delayFor {k : State → Result} {d : Delay} {s : State} (hk : ∀ t, NextOrUnanswered (k t)) :
    NextOrUnanswered (delayFor d k s) := by
  unfold Machine.delayFor
  split
  · exact of_unanswered _
  · exact hk _

theorem busRead {k : ReadOutcome → State → Result} {n : Nat} {s : State} (ha : s.eng.att ≠ .detached)
    (hk : ∀ o t, NextOrUnanswered (k o t)) : NextOrUnanswered (busRead n k s) := by
  unfold Machine.busRead
  split
  · exact absurd ‹_› ha
  · split
    · exact of_unanswered _
    · exact hk _ _

/-! ### Each phase with its registers goes on or waits -/

section
variable {i : Instr} {op : BusOp} {s : State} {f : Frame}

theorem acceptBus : NextOrUnanswered (acceptBus i s) := by
  unfold Machine.acceptBus
  split
  · exact of_next _
  · split <;> exact of_next _

theorem encPhase : NextOrUnanswered (encPhase op i s) := by
  unfold Machine.encPhase
  split
  · exact of_next _
  · split <;> exact of_next _

theorem wrPhase (hx : s.eng.tx = some f) (ha : s.eng.att ≠ .detached) : NextOrUnanswered (wrPhase s) := by
  rw [Machine.wrPhase, hx]
  refine busWrite ha fun o t => ?_
  cases o <;> exact of_next _

theorem rdPhase (ha : s.eng.att ≠ .detached) : NextOrUnanswered (rdPhase op s) := by
  refine busRead ha fun o t => ?_
  cases o <;> exact of_next _

theorem chkPhase (hx : s.eng.rx = some f) : NextOrUnanswered (chkPhase s) := by
  rw [Machine.chkPhase, hx]
  dsimp only
  split <;> exact of_next _

theorem decPhase {v : Value} (hx : s.eng.rx = some f) (hv : decodeRx op f = some v) :
    NextOrUnanswered (decPhase (decodeRx op) s) := by
  rw [Machine.decPhase, hx]
  dsimp only
  rw [hv]
  exact of_next _

end

end NextOrUnanswered

/-! ### A frame of the operation's length has a value (R80 to R89) -/

/-- One data word for each whole triplet (R94). -/
theorem length_frameWords : ∀ f : Frame, (frameWords f).length = f.length / 3
  | [] | [_] | [_, _] => by simp [frameWords]
  | _ :: _ :: _ :: rest => by
    rw [frameWords, List.length_cons, length_frameWords rest]
    simp only [List.length_cons]
    omega

theorem exists_decodeRx {op : BusOp} {f : Frame} (hl : f.length = rxLen op) (hn : rxLen op ≠ 0) :
    ∃ v, decodeRx op f = some v := by
  have hw : (frameWords f).length = rxLen op / 3 := by rw [length_frameWords, hl]
  cases op with
  | init | setbase | setbase2 | sethum => exact absurd rfl hn
  | measure =>
    obtain ⟨v0, v1, hv⟩ := List.length_eq_two.1 hw
    exact ⟨_, by rw [decodeRx, decodeMeasure, hv]⟩
  | getbase =>
    obtain ⟨v0, v1, hv⟩ := List.length_eq_two.1 hw
    exact ⟨_, by rw [decodeRx, decodeGetbase, hv]⟩
  | getbase2 =>
    obtain ⟨v0, hv⟩ := List.length_eq_one_iff.1 hw
    exact ⟨_, by rw [decodeRx, decodeGetbase2, hv]⟩
  | measraw =>
    obtain ⟨v0, hv⟩ := List.length_eq_one_iff.1 hw
    exact ⟨_, by rw [decodeRx, decodeMeasraw, hv]⟩
  | selftest =>
    obtain ⟨v0, hv⟩ := List.length_eq_one_iff.1 hw
    exact ⟨_, by rw [decodeRx, decodeSelftest, hv]⟩
  | getfeat =>
    obtain ⟨d0, d1, c0, rfl⟩ := List.length_eq_three.1 hl
    exact ⟨_, rfl⟩
  | getserial =>
    obtain ⟨v0, v1, v2, hv⟩ := List.length_eq_three.1 hw
    exact ⟨_, by rw [decodeRx, decodeGetserial, hv]⟩

/-! ### No well-formed engine stops otherwise -/

/-- Every request an idle engine is given is answered at once. -/
theorem exec_idle_nextOrUnanswered {s : State} (i : Instr) (hp : s.eng.phase = .idle) : NextOrUnanswered (exec i s) := by
  cases i with
  | crc8 data => rw [exec, execCrc8, whenIdle_idle hp]; exact .of_next _
  | fpenc h =>
    rw [exec, execFpenc, whenIdle_idle hp]
    split <;> exact .of_next _
  | reserved => rw [exec, execReserved, whenIdle_idle hp]; exact .of_next _
  | attach hd =>
    rw [exec, execAttach, whenIdle_idle hp]
    dsimp only
    split <;> exact .of_next _
  | release =>
    rw [exec, execRelease, whenIdle_idle hp]
    dsimp only
    split <;> exact .of_next _
  | _ => rw [exec_bus_idle rfl hp]; exact .acceptBus

theorem Engine.WellFormed.exists_running {e : Engine} (hw : e.WellFormed) (hp : e.phase ≠ .idle) :
    ∃ i op, e.Running i op := by
  cases hp' : e.phase with
  | idle => exact absurd hp' hp
  | enc => obtain ⟨-, -, h⟩ := hw.regs_at hp'; exact h
  | wr | settle | rd => obtain ⟨-, i, op, _, h, -⟩ := hw.regs_at hp'; exact ⟨i, op, h⟩
  | chk | dec => obtain ⟨i, op, _, _, h, -⟩ := hw.regs_at hp'; exact ⟨i, op, h⟩

/-- In each phase a well-formed engine has the registers the phase reads. -/
theorem exec_running_nextOrUnanswered {s : State} {i : Instr} {op : BusOp} (hw : s.eng.WellFormed)
    (hrun : s.eng.Running i op) : NextOrUnanswered (exec i s) := by
  obtain ⟨ho, hi, ha⟩ := hrun
  cases hp : s.eng.phase with
  | idle => exact exec_idle_nextOrUnanswered i hp
  | enc => rw [exec_enc hi hp ho]; exact .encPhase
  | wr =>
    obtain ⟨-, _, _, f, -, hx, -⟩ := hw.regs_at hp
    rw [exec_wr hi hp ho]
    exact .wrPhase hx ha
  | settle =>
    by_cases hn : rxLen op = 0
    · rw [exec_settle_writeOnly hi hn hp ho]
      exact .delayFor fun t => .of_next _
    · rw [exec_settle_reading hi hn hp ho]
      exact .delayFor fun t => .of_next _
  | rd =>
    obtain ⟨-, r, op', _, hrun, -, -, hn⟩ := hw.regs_at hp
    obtain ⟨rfl, rfl⟩ := hrun.unique ho hi
    rw [exec_rd hi hn hp ho]
    exact .rdPhase ha
  | chk =>
    obtain ⟨r, op', _, g, hrun, -, -, hn, hx, -⟩ := hw.regs_at hp
    obtain ⟨rfl, rfl⟩ := hrun.unique ho hi
    rw [exec_chk hi hn hp ho]
    exact .chkPhase hx
  | dec =>
    obtain ⟨r, op', _, g, hrun, -, -, hn, hx, hl, -⟩ := hw.regs_at hp
    obtain ⟨rfl, rfl⟩ := hrun.unique ho hi
    obtain ⟨v, hv⟩ := exists_decodeRx hl hn
    rw [exec_dec hi hn hp ho]
    exact .decPhase hx hv

/-- A step from a well-formed state goes on, waits for an answer, or finds a request that does not decode. -/
theorem step_nextOrUnanswered_or_malformed {s : State} (hw : s.WellFormed) :
    NextOrUnanswered (step s) ∨ ∃ e, step s = .refused (.operandFields e) := by
  have he : s.takeTurn.eng.WellFormed := (State.wellFormed_iff.1 hw.takeTurn).1
  by_cases hp : s.takeTurn.eng.phase = .idle
  · cases hr : s.takeTurn.eng.reqs with
    | nil => rw [step_quiet hp hr]; exact .inl (.of_next _)
    | cons r rs =>
      cases hd : decode r with
      | error e => exact .inr ⟨e, step_malformed hp hr hd⟩
      | ok i => rw [step_idle hp hr hd]; exact .inl (exec_idle_nextOrUnanswered i hp)
  · obtain ⟨i, op, hrun⟩ := he.exists_running hp
    have ⟨ho, _, _⟩ := hrun
    rw [step_busy hp ho]
    exact .inl (exec_running_nextOrUnanswered he hrun)

/-- Settles O56: the ways a step from a well-formed state can go leave no other fault and no other refusal. -/
theorem wellFormedStatesStopOnlyUnanswered : Obligations.WellFormedStatesStopOnlyUnanswered := fun s hw => by
  obtain (⟨t, ht⟩ | ⟨c, hc⟩) | ⟨e, he⟩ := step_nextOrUnanswered_or_malformed hw
  · simp [ht]
  · simp [hc]
  · simp [he]

end Sys2Proof.Machine
end

section
/-! PROOFS. A bus request from acceptance to response (R62): its steps one after the other, each ending of R62 with its exact
state for every operation, and the transaction they refine. -/

namespace Sys2Proof.Machine

/-! ### One move more -/

theorem execTimes_succ {i : Instr} {k : Nat} {s t : State} (h : execTimes i k s = .next t) :
    execTimes i (k + 1) s = exec i t := by
  induction k generalizing s with
  | zero =>
    cases h
    cases ht : exec i t <;> simp [execTimes, ht]
  | succ k ih =>
    rw [execTimes] at h ⊢
    cases hs : exec i s with
    | next v => rw [hs] at h; exact ih h
    | fault x => rw [hs] at h; cases h
    | refused x => rw [hs] at h; cases h

theorem execTimes_move {i : Instr} {op : BusOp} {k : Nat} {s t u : State} (hi : busOp? i = some op)
    (h : execTimes i k s = .next t) (m : BusMove op i t u) : execTimes i (k + 1) s = .next u :=
  (execTimes_succ h).trans (m.exec_eq hi)

/-! ### The answers of a script (log entry 2) -/

theorem writeReply_of_cons {s : State} {r : Reply WriteOutcome} {ws : List (Reply WriteOutcome)} (hd : Handle)
    (h : s.eng.writes = r :: ws) : s.writeReply hd = r := by
  simp [State.writeReply, h]

theorem delayReply_of_cons {s : State} {r : Reply Unit} {ds : List (Reply Unit)} (h : s.eng.delays = r :: ds) :
    s.delayReply = r := by
  simp [State.delayReply, h]

/-- A read delivers its answer as it stands when that is an error or a frame of the length asked for (R33). -/
theorem readReply_of_cons {s : State} {a : ReadOutcome} {rs : List (Reply ReadOutcome)} {n : Nat} (hd : Handle)
    (h : s.eng.reads = .answer a :: rs) (hl : ∀ bs, a = .rOk bs → bs.length = n) : s.readReply hd n = .answer a := by
  cases a with
  | rErr e => simp [State.readReply, h, fitReply]
  | rOk bs =>
    obtain rfl := hl bs rfl
    simp [State.readReply, h, fitReply, fitFrame_self]

/-! ### The way through the phases -/

/-- The engine on its way through the operation of request `i`: its phase, its frames and the events so far. -/
def Engine.within (e : Engine) (p : Phase) (i : Instr) (tx : Frame) (rx : Option Frame) (evs : List Event) : Engine :=
  { e with phase := p, op := some i, tx := some tx, rx := rx, trace := e.trace ++ evs }

theorem State.Ready.att_eq {s : State} {hd : Handle} (h : s.Ready hd) : s.eng.att = .attached hd := h.2.1

theorem State.Ready.busTaken_eq {s : State} {hd : Handle} (h : s.Ready hd) : s.busTaken = false := h.2.2

section
variable {i : Instr} {op : BusOp} {s : State} {hd : Handle} {tx : Frame}
  {ws : List (Reply WriteOutcome)} {ds : List (Reply Unit)} {rs : List (Reply ReadOutcome)}

theorem execTimes_enc (hi : busOp? i = some op) (hr : s.Ready hd) :
    execTimes i 1 s = .next { s with eng := { s.eng with phase := .enc, op := some i } } := by
  obtain ⟨hp, ha, hb⟩ := hr
  exact execTimes_move hi rfl (.accepted hd hp ha hb rfl)

/-- The range error of SETHUM ends it after two steps (C3). -/
theorem execTimes_encRaised {k : ErrKind} (hi : busOp? i = some op) (hr : s.Ready hd)
    (he : encodeTx op i = .error k) : execTimes i 2 s = .next { s with eng := s.eng.after [] (.err k) } :=
  execTimes_move hi (execTimes_enc hi hr) (.encRaised k rfl rfl he (by rw [Engine.finish_eq_after]; rfl))

theorem execTimes_wr (hi : busOp? i = some op) (hr : s.Ready hd) (he : encodeTx op i = .ok tx) :
    execTimes i 2 s = .next { s with eng := s.eng.within .wr i tx s.eng.rx [] } :=
  execTimes_move hi (execTimes_enc hi hr) (.encoded tx rfl rfl he hr.busTaken_eq (by simp [State.withEng, Engine.within]))

theorem execTimes_settle (hi : busOp? i = some op) (hr : s.Ready hd) (he : encodeTx op i = .ok tx)
    (hw : s.eng.writes = .answer .wOk :: ws) :
    execTimes i 3 s = .next
      { s with
        draws := s.draws + 1
        eng := { s.eng with writes := ws }.within .settle i tx s.eng.rx [.evWrite Config.pAddr tx .wOk] } :=
  execTimes_move hi (execTimes_wr hi hr he) (.wrote hd tx rfl rfl hr.att_eq rfl (writeReply_of_cons hd hw)
    (by simp [State.withEng, State.afterWrite, Engine.within, hw]))

theorem execTimes_rd (hi : busOp? i = some op) (hr : s.Ready hd) (he : encodeTx op i = .ok tx)
    (hn : rxLen op ≠ 0) (hw : s.eng.writes = .answer .wOk :: ws) (hds : s.eng.delays = .answer () :: ds) :
    execTimes i 4 s = .next
      { s with
        draws := s.draws + 2
        eng := { s.eng with writes := ws, delays := ds }.within .rd i tx s.eng.rx
          [.evWrite Config.pAddr tx .wOk, delayEvent (settleDelay op)] } :=
  execTimes_move hi (execTimes_settle hi hr he hw) (.settled rfl rfl hn (delayReply_of_cons hds)
    (by simp [State.withEng, State.afterDelay, Engine.within, hds]))

theorem execTimes_chk {rx : Frame} (hi : busOp? i = some op) (hr : s.Ready hd) (he : encodeTx op i = .ok tx)
    (hn : rxLen op ≠ 0) (hl : rx.length = rxLen op) (hw : s.eng.writes = .answer .wOk :: ws)
    (hds : s.eng.delays = .answer () :: ds) (hrs : s.eng.reads = .answer (.rOk rx) :: rs) :
    execTimes i 5 s = .next
      { s with
        draws := s.draws + 3
        eng := { s.eng with writes := ws, delays := ds, reads := rs }.within .chk i tx (some rx)
          [.evWrite Config.pAddr tx .wOk, delayEvent (settleDelay op), .evRead Config.pAddr rx.length (.rOk rx)] } :=
  execTimes_move hi (execTimes_rd hi hr he hn hw hds)
    (.readDone hd rx rfl rfl hn hr.att_eq (readReply_of_cons hd hrs fun _ h => by cases h; exact hl)
      (by simp [State.withEng, State.afterRead, Engine.within, hrs, hl]))

/-! ### The endings of R62, for every operation -/

theorem writesAndReturns_of_rxLen_zero (hi : busOp? i = some op) (he : encodeTx op i = .ok tx) (hn : rxLen op = 0) :
    WritesAndReturns i tx (delayEvent (settleDelay op)) := fun s hd ws ds hr hw hds =>
  execTimes_move hi (execTimes_settle hi hr he hw) (.settledDone rfl rfl hn (delayReply_of_cons hds)
    (by simp [State.withEng, State.afterDelay, Engine.within, Engine.after, Engine.finish, Engine.toIdle, hds]))

theorem endsOnWriteError_of_bus (hi : busOp? i = some op) (he : encodeTx op i = .ok tx) : EndsOnWriteError i tx :=
  fun s hd ws e hr hw =>
  execTimes_move hi (execTimes_wr hi hr he) (.writeFailed hd tx e rfl rfl hr.att_eq rfl (writeReply_of_cons hd hw)
    (by simp [State.withEng, State.afterWrite, Engine.within, Engine.after, Engine.finish, Engine.toIdle, hw]))

theorem endsOnReadError_of_bus (hi : busOp? i = some op) (he : encodeTx op i = .ok tx) (hn : rxLen op ≠ 0) :
    EndsOnReadError i tx (delayEvent (settleDelay op)) (rxLen op) := fun s hd ws ds rs e hr hw hds hrs =>
  execTimes_move hi (execTimes_rd hi hr he hn hw hds)
    (.readFailed hd e rfl rfl hn hr.att_eq (readReply_of_cons hd hrs fun _ h => by cases h)
      (by simp [State.withEng, State.afterRead, Engine.within, Engine.after, Engine.finish, Engine.toIdle, hrs]))

theorem endsOnChecksum_of_invalid {rx : Frame} (hi : busOp? i = some op) (he : encodeTx op i = .ok tx)
    (hn : rxLen op ≠ 0) (hl : rx.length = rxLen op) (hv : frameValid rx = false) :
    EndsOnChecksum i tx (delayEvent (settleDelay op)) rx := fun _ _ _ _ _ hr hw hds hrs =>
  execTimes_move hi (execTimes_chk hi hr he hn hl hw hds hrs) (.checkFailed rx rfl rfl hn rfl hv rfl)

theorem readsAndReturns_of_valid {rx : Frame} {v : Value} (hi : busOp? i = some op) (he : encodeTx op i = .ok tx)
    (hn : rxLen op ≠ 0) (hl : rx.length = rxLen op) (hv : frameValid rx = true) (hdec : decodeRx op rx = some v) :
    ReadsAndReturns i tx (delayEvent (settleDelay op)) rx v := fun _ _ _ _ _ hr hw hds hrs =>
  have hchk := execTimes_chk hi hr he hn hl hw hds hrs
  have hchecked := execTimes_move hi hchk (.checked rx rfl rfl hn rfl hv rfl)
  execTimes_move hi hchecked (.decoded rx v rfl rfl hn rfl hdec rfl)

end

/-! ### The transaction -/

/-- Settles O57: each path through `transaction` is one of the endings, whose exact state is known. -/
theorem phasesRefineTheTransaction : Obligations.PhasesRefineTheTransaction := by
  intro i op s hd w a ws ds rs hi hr hw hds hrs hl
  cases he : encodeTx op i with
  | error k =>
    exact ⟨2, _, [], .err k, by decide, execTimes_encRaised hi hr he, by simp [transaction, he],
      rfl, rfl, rfl, rfl, rfl, rfl⟩
  | ok tx =>
    cases w with
    | wErr e =>
      exact ⟨3, _, _, _, by decide, endsOnWriteError_of_bus hi he s hd ws e hr hw, by simp [transaction, he],
        rfl, rfl, rfl, rfl, rfl, rfl⟩
    | wOk =>
      by_cases hn : rxLen op = 0
      · exact ⟨4, _, _, _, by decide, writesAndReturns_of_rxLen_zero hi he hn s hd ws ds hr hw hds,
          by simp [transaction, he, hn], rfl, rfl, rfl, rfl, rfl, rfl⟩
      · cases a with
        | rErr e =>
          exact ⟨5, _, _, _, by decide, endsOnReadError_of_bus hi he hn s hd ws ds rs e hr hw hds hrs,
            by simp [transaction, he, hn], rfl, rfl, rfl, rfl, rfl, rfl⟩
        | rOk rx =>
          have hlen : rx.length = rxLen op := hl rx hn rfl
          cases hv : frameValid rx with
          | false =>
            exact ⟨6, _, _, _, by decide, endsOnChecksum_of_invalid hi he hn hlen hv s hd ws ds rs hr hw hds hrs,
              by simp [transaction, he, hn, hv, hlen], rfl, rfl, rfl, rfl, rfl, rfl⟩
          | true =>
            obtain ⟨v, hdec⟩ := exists_decodeRx hlen hn
            exact ⟨7, _, _, _, by decide, readsAndReturns_of_valid hi he hn hlen hv hdec s hd ws ds rs hr hw hds hrs,
              by simp [transaction, he, hn, hv, hlen, hdec], rfl, rfl, rfl, rfl, rfl, rfl⟩

end Sys2Proof.Machine
end

section
/-! PROOFS. The eleven operations of R79 to R89 from acceptance to response: the endings of R62, with each operation's own
frames, delay, length and value put in. -/

namespace Sys2Proof.Machine

/-! ### Valid and invalid frames, triplet by triplet (R92, R93) -/

@[simp] theorem frameValid_triplet_eq_true_iff {d0 d1 c : Byte} {rest : Frame} :
    frameValid (d0 :: d1 :: c :: rest) = true ↔ crc8 [d0, d1] = c ∧ frameValid rest = true := by
  simp [frameValid]

@[simp] theorem frameValid_triplet_eq_false_iff {d0 d1 c : Byte} {rest : Frame} :
    frameValid (d0 :: d1 :: c :: rest) = false ↔ crc8 [d0, d1] ≠ c ∨ frameValid rest = false := by
  rw [← Bool.not_eq_true, frameValid_triplet_eq_true_iff, not_and_or, Bool.not_eq_true]

@[simp] theorem frameValid_nil : frameValid [] = true := rfl

/-! ### An operation with a read: a failed bus access, and a response frame of one triplet or of two -/

section
variable {i : Instr} {op : BusOp} {d0 d1 c0 d2 d3 c1 : Byte} {v : Value}

/-- The two failures of a bus access, before any response frame. -/
theorem endsOnTransportError (hi : busOp? i = some op) (ht : txLen op = 2) (hn : rxLen op ≠ 0) :
    EndsOnWriteError i (cmd op) ∧ EndsOnReadError i (cmd op) (delayEvent (settleDelay op)) (rxLen op) :=
  have he := encodeTx_of_txLen_two hi ht
  ⟨endsOnWriteError_of_bus hi he, endsOnReadError_of_bus hi he hn⟩

theorem runs_on_one_triplet (hi : busOp? i = some op) (ht : txLen op = 2) (hl : rxLen op = 3)
    (hdec : decodeRx op [d0, d1, c0] = some v) :
    (crc8 [d0, d1] ≠ c0 → EndsOnChecksum i (cmd op) (delayEvent (settleDelay op)) [d0, d1, c0]) ∧
    (crc8 [d0, d1] = c0 → ReadsAndReturns i (cmd op) (delayEvent (settleDelay op)) [d0, d1, c0] v) := by
  have he := encodeTx_of_txLen_two hi ht
  have hn : rxLen op ≠ 0 := by simp [hl]
  refine ⟨fun hbad => ?_, fun hgood => ?_⟩
  · exact endsOnChecksum_of_invalid hi he hn hl.symm (by simpa using hbad)
  · exact readsAndReturns_of_valid hi he hn hl.symm (by simpa using hgood) hdec

theorem runs_on_two_triplets (hi : busOp? i = some op) (ht : txLen op = 2) (hl : rxLen op = 6)
    (hdec : decodeRx op [d0, d1, c0, d2, d3, c1] = some v) :
    (crc8 [d0, d1] ≠ c0 ∨ crc8 [d2, d3] ≠ c1 →
      EndsOnChecksum i (cmd op) (delayEvent (settleDelay op)) [d0, d1, c0, d2, d3, c1]) ∧
    (crc8 [d0, d1] = c0 → crc8 [d2, d3] = c1 →
      ReadsAndReturns i (cmd op) (delayEvent (settleDelay op)) [d0, d1, c0, d2, d3, c1] v) := by
  have he := encodeTx_of_txLen_two hi ht
  have hn : rxLen op ≠ 0 := by simp [hl]
  refine ⟨fun hbad => ?_, fun h0 h1 => ?_⟩
  · exact endsOnChecksum_of_invalid hi he hn hl.symm (by simpa using hbad)
  · exact readsAndReturns_of_valid hi he hn hl.symm (by simp [h0, h1]) hdec

end

/-! ### The values of R86, R88 and R89 in terms of the bytes -/

/-- The whole word is `P_SELFTEST_PATTERN` exactly when its bytes are D4 00. -/
theorem w16_eq_selftestPattern_iff {d0 d1 : Byte} :
    w16 d0 d1 = selftestPattern ↔ d0 = 0xD4#8 ∧ d1 = 0x00#8 := by
  have hd1 : d1.toNat < 256 := d1.isLt
  simp only [← BitVec.toNat_inj, toNat_w16, selftestPattern, BitVec.toNat_ofNat]
  omega

theorem decodeSelftest_triplet (d0 d1 c : Byte) :
    decodeSelftest [d0, d1, c] = some (.flag (decide (d0 = 0xD4#8 ∧ d1 = 0x00#8))) := by
  simp only [decodeSelftest, frameWords, beq_eq_decide, w16_eq_selftestPattern_iff]

theorem decodeGetfeat_triplet (d0 d1 c : Byte) :
    decodeGetfeat [d0, d1, c] = some (.feature (BitVec.ofNat 4 (d0.toNat / 16)) d1) := by
  rw [decodeGetfeat, BitVec.extractLsb', Nat.shiftRight_eq_div_pow]

theorem toNat_append_word {n : Nat} (x : BitVec n) (w : Word) : (x ++ w).toNat = x.toNat * 65536 + w.toNat := by
  rw [BitVec.toNat_append, ← Nat.shiftLeft_add_eq_or_of_lt w.isLt, Nat.shiftLeft_eq]

/-- The serial identifier as a number, the highest word first (R53, R89). -/
theorem toNat_serial (a b c : Word) :
    (0#16 ++ a ++ b ++ c).toNat = a.toNat * 4294967296 + b.toNat * 65536 + c.toNat := by
  rw [toNat_append_word, toNat_append_word, toNat_append_word, BitVec.toNat_ofNat]
  omega

/-! ### The operations without a read -/

/-- Settles O17: the write frame is the command alone. -/
theorem initRuns : Obligations.InitRuns :=
  ⟨writesAndReturns_of_rxLen_zero (op := .init) rfl rfl rfl, endsOnWriteError_of_bus (op := .init) rfl rfl⟩

/-- Settles O20: `encodeTx` puts the triplet of `a` before that of `b`. -/
theorem setbaseRuns : Obligations.SetbaseRuns := fun _ _ =>
  ⟨writesAndReturns_of_rxLen_zero (op := .setbase) rfl rfl rfl, endsOnWriteError_of_bus (op := .setbase) rfl rfl⟩

/-- Settles O22: `encodeTx` puts the triplet of `w` after the command. -/
theorem setbase2Runs : Obligations.Setbase2Runs := fun _ =>
  ⟨writesAndReturns_of_rxLen_zero (op := .setbase2) rfl rfl rfl, endsOnWriteError_of_bus (op := .setbase2) rfl rfl⟩

/-- Settles O25: whether the operation gets past ENC is whether fpenc has a value. -/
theorem sethumRuns : Obligations.SethumRuns := fun h => by
  refine ⟨fun q hq => ?_, fun k s hd hk hr => ?_⟩
  · have he : encodeTx .sethum (.sethum h) = .ok (cmd .sethum ++ triplet q) := encodeTx_sethum_ok hq
    exact ⟨writesAndReturns_of_rxLen_zero rfl he rfl, endsOnWriteError_of_bus rfl he⟩
  · cases fpenc_error hk
    exact execTimes_encRaised rfl hr (encodeTx_sethum_error hk)

/-! ### The operations with a read -/

/-- Settles O18: two triplets, decoded in frame order. -/
theorem measureRuns : Obligations.MeasureRuns := by
  obtain ⟨hw, hr⟩ := endsOnTransportError (i := .measure) (op := .measure) rfl rfl (by decide)
  exact ⟨hw, hr, fun _ _ _ _ _ _ => runs_on_two_triplets (op := .measure) rfl rfl rfl rfl⟩

/-- Settles O19: two triplets, decoded in frame order. -/
theorem getbaseRuns : Obligations.GetbaseRuns := by
  obtain ⟨hw, hr⟩ := endsOnTransportError (i := .getbase) (op := .getbase) rfl rfl (by decide)
  exact ⟨hw, hr, fun _ _ _ _ _ _ => runs_on_two_triplets (op := .getbase) rfl rfl rfl rfl⟩

/-- Settles O21: one triplet, its word unchanged. -/
theorem getbase2Runs : Obligations.Getbase2Runs := by
  obtain ⟨hw, hr⟩ := endsOnTransportError (i := .getbase2) (op := .getbase2) rfl rfl (by decide)
  exact ⟨hw, hr, fun _ _ _ => runs_on_one_triplet (op := .getbase2) rfl rfl rfl rfl⟩

/-- Settles O23: one triplet, its word unchanged, after 25 ms. -/
theorem measrawRuns : Obligations.MeasrawRuns := by
  obtain ⟨hw, hr⟩ := endsOnTransportError (i := .measraw) (op := .measraw) rfl rfl (by decide)
  exact ⟨hw, hr, fun _ _ _ => runs_on_one_triplet (op := .measraw) rfl rfl rfl rfl⟩

/-- Settles O24: one triplet, its word compared whole with the pattern. -/
theorem selftestRuns : Obligations.SelftestRuns := by
  obtain ⟨hw, hr⟩ := endsOnTransportError (i := .selftest) (op := .selftest) rfl rfl (by decide)
  exact ⟨hw, hr, fun d0 d1 c0 =>
    runs_on_one_triplet (op := .selftest) rfl rfl rfl (decodeSelftest_triplet d0 d1 c0)⟩

/-- Settles O26: one triplet, of which the low nibble of the first byte is left out. -/
theorem getfeatRuns : Obligations.GetfeatRuns := by
  obtain ⟨hw, hr⟩ := endsOnTransportError (i := .getfeat) (op := .getfeat) rfl rfl (by decide)
  exact ⟨hw, hr, fun d0 d1 c0 =>
    runs_on_one_triplet (op := .getfeat) rfl rfl rfl (decodeGetfeat_triplet d0 d1 c0)⟩

/-- Settles O27: three triplets, and the number is that of the three words one after the other. -/
theorem getserialRuns : Obligations.GetserialRuns := by
  obtain ⟨hw, hr⟩ := endsOnTransportError (i := .getserial) (op := .getserial) rfl rfl (by decide)
  refine ⟨hw, hr, fun d0 d1 c0 d2 d3 c1 d4 d5 c2 => ⟨fun hbad => ?_, fun h0 h1 h2 => ?_⟩⟩
  · exact endsOnChecksum_of_invalid (op := .getserial) rfl rfl (by decide) rfl (by simpa using hbad)
  · exact ⟨_, toNat_serial (w16 d0 d1) (w16 d2 d3) (w16 d4 d5),
      readsAndReturns_of_valid (op := .getserial) rfl rfl (by decide) rfl (by simp [h0, h1, h2]) rfl⟩

end Sys2Proof.Machine
end

section
/-! PROOFS. The checksum (R90, R91) and the frame check (R92, R93): a shift is injective, so two lists that differ in one
byte, whichever it is, have different checksums. -/

namespace Sys2Proof.Machine

/-- What leaves at bit 7 comes back at bit 0, since the polynomial is odd. -/
theorem getLsbD_zero_crcShift (c : Byte) : (crcShift c).getLsbD 0 = c.getLsbD 7 := by
  unfold crcShift
  split <;> simp_all [crcPoly]

/-- Bit 0 of the result gives bit 7 back, so both shifts feed back or neither does, and `<<<` keeps the other bits. -/
theorem crcShift_injective : Function.Injective crcShift := fun a b h => by
  have h7 : a.getLsbD 7 = b.getLsbD 7 := by rw [← getLsbD_zero_crcShift, h, getLsbD_zero_crcShift]
  have hshift : a <<< 1 = b <<< 1 := by
    unfold crcShift at h
    rw [h7] at h
    split at h
    · simpa using h
    · exact h
  ext i hi
  obtain rfl | hlt : i = 7 ∨ i + 1 < 8 := by omega
  · exact h7
  · simpa [hlt] using congrArg (BitVec.getLsbD · (i + 1)) hshift

theorem crcShifts_eq_iterate (n : Nat) : crcShifts n = crcShift^[n] := by
  induction n with
  | zero => rfl
  | succ n ih => funext c; rw [crcShifts, ih, Function.iterate_succ_apply]

@[simp] theorem crcShifts_inj {n : Nat} {a b : Byte} : crcShifts n a = crcShifts n b ↔ a = b := by
  rw [crcShifts_eq_iterate, (crcShift_injective.iterate n).eq_iff]

@[simp] theorem crcByte_left_inj {c c' b : Byte} : crcByte c b = crcByte c' b ↔ c = c' := by
  simp [crcByte]

@[simp] theorem crcByte_right_inj {c b b' : Byte} : crcByte c b = crcByte c b' ↔ b = b' := by
  simp [crcByte]

theorem crc8_pair (d0 d1 : Byte) : crc8 [d0, d1] = crcByte (crcByte crcInit d0) d1 := rfl

theorem crc8_append_singleton (data : List Byte) (b : Byte) : crc8 (data ++ [b]) = crcByte (crc8 data) b := by
  simp [crc8]

/-- Settles O32: the eight shifts are the iterate of one. -/
theorem crc8FollowsTheRule : Obligations.Crc8FollowsTheRule := by
  refine ⟨rfl, fun data b => ?_, by decide +kernel, by decide +kernel⟩
  rw [crc8_append_singleton, crcByte, crcShifts_eq_iterate]
  rfl

/-- Settles O33: the last byte cancels the checksum, and shifting 0 gives 0. -/
theorem listWithItsChecksumSumsToZero : Obligations.ListWithItsChecksumSumsToZero := fun data => by
  rw [crc8_append_singleton, crcByte, BitVec.xor_self]
  rfl

/-- Settles O34: the checksum is injective in either data byte, and the third byte is the checksum itself. -/
theorem oneAlteredByteFailsTheCheck : Obligations.OneAlteredByteFailsTheCheck := fun d0 d1 c x hv => by
  obtain rfl : crc8 [d0, d1] = c := by simpa using hv
  refine ⟨fun hx => ?_, fun hx => ?_, fun hx => ?_⟩
  · simpa [crc8_pair] using hx
  · simpa [crc8_pair] using hx
  · simpa using hx.symm

/-- Settles O40: each triplet adds its own check, and nothing is left after the last. -/
theorem frameIsValidWhenEveryTripletIs : Obligations.FrameIsValidWhenEveryTripletIs := by
  intro d0 d1 c0 d2 d3 c1 d4 d5 c2
  simp only [frameValid_triplet_eq_true_iff, frameValid_nil, and_true, iff_self]

end Sys2Proof.Machine
end

section
/-! PROOFS. The 8.8 fixed-point encoder (R96 to R99): the integer arithmetic on numerator and denominator as the floors of
the rational, and with them the encoder's closed form. -/

namespace Sys2Proof.Machine

theorem ratFloor_eq_floor (q : ℚ) : ratFloor q = ⌊q⌋ := Rat.floor_def'.symm

theorem ratFraction_eq_floor (q : ℚ) (ip : ℤ) : ratFraction q ip = ⌊(q - ip) * 256⌋ := by
  have hq : (q - ip) * 256 = (((q.num - ip * (q.den : ℤ)) * 256 : ℤ) : ℚ) / q.den := by
    have hden : (q.den : ℚ) ≠ 0 := by simp
    rw [eq_div_iff hden]
    push_cast
    linear_combination 256 * Rat.mul_den_eq_num q
  rw [hq, Rat.floor_intCast_div_natCast, ratFraction]

/-- Settles O36: the fraction lies from 0 to below 1. -/
theorem fractionCheckIsNeverTaken : Obligations.FractionCheckIsNeverTaken := fun q => by
  have h0 := Int.fract_nonneg q
  have h1 := Int.fract_lt_one q
  rw [ratFloor_eq_floor, ratFraction_eq_floor, Int.self_sub_floor]
  refine ⟨Int.floor_nonneg.2 (by linarith), Int.lt_add_one_iff.1 (Int.floor_lt.2 ?_)⟩
  push_cast
  linarith

/-- Integer part and scaled fraction together are the floor of the scaled value (R97, R98). -/
theorem floor_mul_add_floor_fraction (q : ℚ) : ⌊q⌋ * 256 + ⌊(q - ⌊q⌋) * 256⌋ = ⌊256 * q⌋ := by
  rw [← Int.floor_intCast_add]
  congr 1
  push_cast
  ring

theorem fpenc_exact_of_inRange {q : ℚ} (h0 : 0 ≤ q) (h1 : q < 256) :
    fpenc (.exact q) = .ok (BitVec.ofInt 16 ⌊256 * q⌋) := by
  have hnum : ¬ q.num < 0 := not_lt.2 (Rat.num_nonneg.2 h0)
  have hip : ¬ 255 < ratFloor q := by
    rw [ratFloor_eq_floor, not_lt, ← Int.lt_add_one_iff, Int.floor_lt]
    exact h1
  have hfp : ¬ 255 < ratFraction q (ratFloor q) := not_lt.2 (fractionCheckIsNeverTaken q).2
  rw [fpenc, if_neg hnum, if_neg hip, if_neg hfp, ratFloor_eq_floor, ratFraction_eq_floor,
    floor_mul_add_floor_fraction]

theorem fpenc_exact_of_neg {q : ℚ} (h : q < 0) : fpenc (.exact q) = .error .fixedPointRange := by
  rw [fpenc, if_pos (Rat.num_neg.2 h)]

theorem fpenc_exact_of_le {q : ℚ} (h : 256 ≤ q) : fpenc (.exact q) = .error .fixedPointRange := by
  have hnum : ¬ q.num < 0 := not_lt.2 (Rat.num_nonneg.2 (by linarith))
  have hip : 255 < ratFloor q := by
    rw [ratFloor_eq_floor, ← Int.add_one_le_iff, Int.le_floor]
    exact h
  rw [fpenc, if_neg hnum, if_pos hip]

/-- Settles O35: below 256 the scaled floor fits a word, so the word is that number. -/
theorem fpencTruncatesExactly : Obligations.FpencTruncatesExactly := fun q => by
  refine ⟨fun h0 h1 => ?_, fun h => h.elim fpenc_exact_of_neg fpenc_exact_of_le⟩
  have hlo : 0 ≤ ⌊256 * q⌋ := Int.floor_nonneg.2 (by linarith)
  have hhi : ⌊256 * q⌋ < 65536 := Int.floor_lt.2 (by push_cast; linarith)
  have hw : ((BitVec.ofInt 16 ⌊256 * q⌋).toNat : ℤ) = ⌊256 * q⌋ := by
    rw [BitVec.toNat_ofInt]; omega
  have hwq : ((BitVec.ofInt 16 ⌊256 * q⌋).toNat : ℚ) = ⌊256 * q⌋ := by exact_mod_cast hw
  refine ⟨_, fpenc_exact_of_inRange h0 h1, hw.trans (floor_mul_add_floor_fraction q).symm, hw, ?_, ?_⟩
  · rw [hwq]; linarith [Int.floor_le (256 * q)]
  · rw [hwq]; linarith [Int.lt_floor_add_one (256 * q)]

/-- Settles O37: the encoder's arms for the values without a rational value (R96). -/
theorem nonFiniteValuesAreOutOfRange : Obligations.NonFiniteValuesAreOutOfRange := ⟨rfl, rfl, rfl⟩

end Sys2Proof.Machine
end

section
/-! PROOFS. The codec requests CRC8 and FPENC (R100, R101), and the frame of the bus-free requests. -/

namespace Sys2Proof.Machine

theorem exec_crc8_idle {s : State} (data : List Byte) (hp : s.eng.phase = .idle) :
    exec (.crc8 data) s = .next (s.withEng (s.eng.after [] (.ok (.byte (crc8 data))))) := by
  simp [exec, execCrc8, whenIdle_idle hp, complete, Engine.finish_eq_after]

theorem exec_fpenc_ok {s : State} {h : Humidity} {q : Word} (hp : s.eng.phase = .idle) (hq : fpenc h = .ok q) :
    exec (.fpenc h) s = .next (s.withEng (s.eng.after [] (.ok (.word q)))) := by
  simp [exec, execFpenc, whenIdle_idle hp, hq, complete, Engine.finish_eq_after]

theorem exec_fpenc_error {s : State} {h : Humidity} {k : ErrKind} (hp : s.eng.phase = .idle)
    (hk : fpenc h = .error k) : exec (.fpenc h) s = .next (s.withEng (s.eng.after [] (.err k))) := by
  simp [exec, execFpenc, whenIdle_idle hp, hk, raise, Engine.finish_eq_after]

/-- Settles O28: CRC8 in IDLE ends at once, whatever the attachment. -/
theorem crc8Answers : Obligations.Crc8Answers := fun data _ hp => exec_crc8_idle data hp

/-- Settles O29: the two arms of FPENC in IDLE, the encoder's only error being the range error. -/
theorem fpencAnswers : Obligations.FpencAnswers := fun _ _ hp =>
  ⟨fun _ hq => exec_fpenc_ok hp hq, fun _ hk => fpenc_error hk ▸ exec_fpenc_error hp hk⟩

namespace FreeMove

variable {i : Instr} {s t : State}

theorem phase_eq (m : FreeMove i s t) (hp : s.eng.phase = .idle) : t.eng.phase = .idle := by
  cases m with
  | refused _ _ ht => subst ht; exact hp
  | _ => subst t; rfl

theorem draws_eq (m : FreeMove i s t) : t.draws = s.draws := by
  cases m <;> subst t <;> rfl

/-- The port of the requests and the scripts of the answers are not touched. -/
theorem ports_eq (m : FreeMove i s t) : t.eng.reqs = s.eng.reqs ∧
    t.eng.writes = s.eng.writes ∧ t.eng.delays = s.eng.delays ∧ t.eng.reads = s.eng.reads := by
  cases m <;> subst t <;> exact ⟨rfl, rfl, rfl, rfl⟩

theorem codec_frame (m : FreeMove i s t) (hi : (∃ data, i = .crc8 data) ∨ (∃ h, i = .fpenc h)) :
    t.eng.att = s.eng.att ∧ t.eng.refused = s.eng.refused ∧ t.eng.reasons = s.eng.reasons := by
  cases m with
  | crc _ _ ht | fpOk _ _ _ _ ht | fpErr _ _ _ _ ht => subst ht; exact ⟨rfl, rfl, rfl⟩
  | attached _ h | released _ h => subst h; simp at hi
  | refused _ h => obtain ⟨rfl, _⟩ | ⟨⟨_, rfl⟩, _⟩ | ⟨rfl, _⟩ := h <;> simp at hi

theorem reserved_frame (m : FreeMove .reserved s t) : t.eng.att = s.eng.att ∧ t.eng.resps = s.eng.resps := by
  cases m with
  | refused _ _ ht => subst ht; exact ⟨rfl, rfl⟩
  | crc _ hi | fpOk _ _ hi | fpErr _ _ hi | attached _ hi | released _ hi => cases hi

end FreeMove

/-- Settles O52, field by field. -/
theorem busFreeRequestFrame : Obligations.BusFreeRequestFrame := fun i s t hnone h => by
  obtain ⟨_, hi, _⟩ | ⟨_, hp, m⟩ := exec_next h
  · cases hnone.symm.trans hi
  · obtain ⟨hothers, hturns⟩ := m.others_turns_eq
    obtain ⟨hreqs, hwrites, hdelays, hreads⟩ := m.ports_eq
    exact ⟨hp, m.phase_eq hp, hothers, hturns, m.draws_eq, m.trace_eq, hreqs, hwrites, hdelays, hreads,
      m.codec_frame, fun hi => (hi ▸ m).reserved_frame⟩

end Sys2Proof.Machine
end

section
/-! PROOFS. Renaming payloads and handles (R5, R102): each update of the state and each shared operation commutes with it,
so every request does. -/

namespace Sys2Proof.Machine

section
variable {f : TErr → TErr} {g : Handle → Handle} {s : State}

/-! ### What the renaming does to the state and its updates -/

@[simp] theorem Engine.rename_att (e : Engine) : (e.rename f g).att = e.att.rename g := rfl
@[simp] theorem Engine.rename_phase (e : Engine) : (e.rename f g).phase = e.phase := rfl
@[simp] theorem Engine.rename_op (e : Engine) : (e.rename f g).op = e.op.map (Instr.rename g) := rfl
@[simp] theorem Engine.rename_tx (e : Engine) : (e.rename f g).tx = e.tx := rfl
@[simp] theorem Engine.rename_rx (e : Engine) : (e.rename f g).rx = e.rx := rfl
@[simp] theorem Engine.rename_writes (e : Engine) :
    (e.rename f g).writes = e.writes.map (Reply.map (WriteOutcome.rename f)) := rfl
@[simp] theorem Engine.rename_delays (e : Engine) : (e.rename f g).delays = e.delays := rfl
@[simp] theorem Engine.rename_reads (e : Engine) :
    (e.rename f g).reads = e.reads.map (Reply.map (ReadOutcome.rename f)) := rfl

@[simp] theorem Att.rename_detached : Att.detached.rename g = .detached := rfl
@[simp] theorem Att.rename_attached (hd : Handle) : (Att.attached hd).rename g = .attached (g hd) := rfl

@[simp] theorem delayEvent_rename (d : Delay) : (delayEvent d).rename f = delayEvent d := by
  cases d <;> rfl

theorem Engine.rename_finish (e : Engine) (r : Response) :
    (e.finish r).rename f g = (e.rename f g).finish (r.rename f g) := by
  simp [Engine.finish, Engine.toIdle, Engine.rename]

theorem State.rename_withEng (e : Engine) : (s.withEng e).rename f g = (s.rename f g).withEng (e.rename f g) := rfl

theorem State.rename_afterWrite (bs : Frame) (o : WriteOutcome) :
    (s.afterWrite bs o).rename f g = (s.rename f g).afterWrite bs (o.rename f) := by
  simp [State.afterWrite, State.rename, Engine.rename, Event.rename, List.map_tail]

theorem State.rename_afterDelay (d : Delay) : (s.afterDelay d).rename f g = (s.rename f g).afterDelay d := by
  simp [State.afterDelay, State.rename, Engine.rename]

theorem State.rename_afterRead (n : Nat) (o : ReadOutcome) :
    (s.afterRead n o).rename f g = (s.rename f g).afterRead n (o.rename f) := by
  simp [State.afterRead, State.rename, Engine.rename, Event.rename, List.map_tail]

/-! ### Answers in the script are renamed, and do not depend on the handle -/

theorem writeReply_rename (hw : s.eng.writes ≠ []) (hd hd' : Handle) :
    (s.rename f g).writeReply hd' = (s.writeReply hd).map (WriteOutcome.rename f) := by
  obtain ⟨r, ws, hr⟩ := List.exists_cons_of_ne_nil hw
  simp [State.writeReply, hr]

theorem fitReply_map_rename (pad : Nat → Byte) (n : Nat) : ∀ r : Reply ReadOutcome,
    fitReply pad n (r.map (ReadOutcome.rename f)) = (fitReply pad n r).map (ReadOutcome.rename f)
  | .answer (.rOk _) => rfl
  | .answer (.rErr _) => rfl
  | .silent => rfl

theorem readReply_rename (hr : s.eng.reads ≠ []) (hd hd' : Handle) (n : Nat) :
    (s.rename f g).readReply hd' n = (s.readReply hd n).map (ReadOutcome.rename f) := by
  obtain ⟨r, rs, hr⟩ := List.exists_cons_of_ne_nil hr
  simp [State.readReply, hr, fitReply_map_rename]

/-! ### Ending and refusing -/

theorem refuse_rename (r : Reason) : refuse r (s.rename f g) = renameResult f g (refuse r s) := rfl

theorem refuseInEnc_rename (r : Reason) : refuseInEnc r (s.rename f g) = renameResult f g (refuseInEnc r s) := rfl

theorem complete_rename (v : Value) : complete (v.rename g) (s.rename f g) = renameResult f g (complete v s) := by
  simp only [complete, renameResult, State.rename_withEng, Engine.rename_finish]
  rfl

theorem raise_rename (k : ErrKind) : raise (k.rename f) (s.rename f g) = renameResult f g (raise k s) := by
  simp only [raise, renameResult, State.rename_withEng, Engine.rename_finish]
  rfl

/-! ### Calls: what follows the answer decides -/

theorem busWrite_rename {k : WriteOutcome → State → Result} (bs : Frame) (hw : s.eng.writes ≠ [])
    (hk : ∀ o t, k (o.rename f) (t.rename f g) = renameResult f g (k o t)) :
    busWrite bs k (s.rename f g) = renameResult f g (busWrite bs k s) := by
  cases ha : s.eng.att with
  | detached => simp [busWrite, ha, renameResult]
  | attached hd =>
    have hr := writeReply_rename (f := f) (g := g) hw hd (g hd)
    cases h : s.writeReply hd with
    | silent =>
      rw [h] at hr
      rw [busWrite_silent ha h, busWrite_silent (by simp [ha]) hr]
      rfl
    | answer o =>
      rw [h] at hr
      rw [busWrite_answer ha h, busWrite_answer (by simp [ha]) hr, ← State.rename_afterWrite, hk]

theorem delayFor_rename {k : State → Result} (d : Delay)
    (hk : ∀ t : State, k (t.rename f g) = renameResult f g (k t)) :
    delayFor d k (s.rename f g) = renameResult f g (delayFor d k s) := by
  cases h : s.delayReply with
  | silent => rw [delayFor_silent h, delayFor_silent (s := s.rename f g) h]; rfl
  | answer _ => rw [delayFor_answer h, delayFor_answer (s := s.rename f g) h, ← State.rename_afterDelay, hk]

theorem busRead_rename {k : ReadOutcome → State → Result} (n : Nat) (hr : s.eng.reads ≠ [])
    (hk : ∀ o t, k (o.rename f) (t.rename f g) = renameResult f g (k o t)) :
    busRead n k (s.rename f g) = renameResult f g (busRead n k s) := by
  cases ha : s.eng.att with
  | detached => simp [busRead, ha, renameResult]
  | attached hd =>
    have hr := readReply_rename (f := f) (g := g) hr hd (g hd) n
    cases h : s.readReply hd n with
    | silent =>
      rw [h] at hr
      rw [busRead_silent ha h, busRead_silent (by simp [ha]) hr]
      rfl
    | answer o =>
      rw [h] at hr
      rw [busRead_answer ha h, busRead_answer (by simp [ha]) hr, ← State.rename_afterRead, hk]

/-! ### The phases of R62 -/

section
variable {op : BusOp} {i : Instr}

/-- The encoder's only error is the range error of SETHUM's operand (R64, R97). -/
theorem encodeTx_error {k : ErrKind} (h : encodeTx op i = .error k) :
    k = .fixedPointRange ∧ ∃ q, i = .sethum q ∧ fpenc q = .error .fixedPointRange := by
  unfold encodeTx at h
  split at h
  case h_3 q =>
    split at h
    · cases h
      obtain rfl := fpenc_error ‹_›
      exact ⟨rfl, q, rfl, ‹_›⟩
    · cases h
  all_goals cases h

/-- A response frame holds no handle. -/
theorem decodeRx_rename {rx : Frame} {v : Value} (h : decodeRx op rx = some v) : v.rename g = v := by
  cases op with
  | init | setbase | setbase2 | sethum => cases h
  | _ =>
    simp only [decodeRx, decodeMeasure, decodeGetbase, decodeGetbase2, decodeMeasraw, decodeSelftest, decodeGetfeat,
      decodeGetserial] at h
    split at h <;> cases h
    rfl

theorem acceptBus_rename (hi : busOp? i = some op) :
    acceptBus i (s.rename f g) = renameResult f g (acceptBus i s) := by
  cases ha : s.eng.att with
  | detached =>
    rw [acceptBus_detached ha, acceptBus_detached (by simp [ha]), refuse_rename]
  | attached hd =>
    cases hb : s.busTaken with
    | true => simp [acceptBus, ha, hb, refuse_rename]
    | false =>
      simp [acceptBus, ha, hb, renameResult, State.rename_withEng, Engine.rename, Instr.rename_of_bus g hi]

theorem encPhase_rename : encPhase op i (s.rename f g) = renameResult f g (encPhase op i s) := by
  cases he : encodeTx op i with
  | error k =>
    obtain ⟨rfl, _⟩ := encodeTx_error he
    simp only [encPhase, he]
    exact raise_rename .fixedPointRange
  | ok tx =>
    cases hb : s.busTaken with
    | true => simp [encPhase, he, hb, refuseInEnc_rename]
    | false => simp [encPhase, he, hb, renameResult, State.rename_withEng, Engine.rename]

theorem wrPhase_rename (hw : s.eng.writes ≠ []) : wrPhase (s.rename f g) = renameResult f g (wrPhase s) := by
  cases hx : s.eng.tx with
  | none => simp [wrPhase, hx, renameResult]
  | some tx =>
    simp only [wrPhase, State.rename_eng, Engine.rename_tx, hx]
    refine busWrite_rename tx hw fun o t => ?_
    cases o with
    | wOk => rfl
    | wErr e => exact raise_rename (.transport e)

theorem settleThenReturn_rename :
    settleThenReturn op (s.rename f g) = renameResult f g (settleThenReturn op s) :=
  delayFor_rename _ fun _ => complete_rename .unit

theorem settleThenRead_rename : settleThenRead op (s.rename f g) = renameResult f g (settleThenRead op s) :=
  delayFor_rename _ fun _ => rfl

theorem rdPhase_rename (hr : s.eng.reads ≠ []) : rdPhase op (s.rename f g) = renameResult f g (rdPhase op s) := by
  refine busRead_rename _ hr fun o t => ?_
  cases o with
  | rOk bs => rfl
  | rErr e => exact raise_rename (.transport e)

theorem chkPhase_rename : chkPhase (s.rename f g) = renameResult f g (chkPhase s) := by
  cases hx : s.eng.rx with
  | none => simp [chkPhase, hx, renameResult]
  | some rx =>
    cases hv : frameValid rx with
    | true => simp [chkPhase, hx, hv, renameResult, State.rename_withEng, Engine.rename]
    | false => simp [chkPhase, hx, hv, ← raise_rename, ErrKind.rename]

theorem decPhase_rename : decPhase (decodeRx op) (s.rename f g) = renameResult f g (decPhase (decodeRx op) s) := by
  cases hx : s.eng.rx with
  | none => simp [decPhase, hx, renameResult]
  | some rx =>
    cases hv : decodeRx op rx with
    | none => simp [decPhase, hx, hv, renameResult]
    | some v => simp [decPhase, hx, hv, ← complete_rename, decodeRx_rename hv]

/-! ### Guards and the whole sequence -/

theorem whenIdle_rename {k k' : State → Result} (hk : k' (s.rename f g) = renameResult f g (k s)) :
    whenIdle k' (s.rename f g) = renameResult f g (whenIdle k s) := by
  by_cases hp : s.eng.phase = .idle
  · rw [whenIdle_idle hp, whenIdle_idle (s := s.rename f g) hp, hk]
  · rw [whenIdle_busy hp, whenIdle_busy (s := s.rename f g) hp]; rfl

/-- Bus requests hold no handle, so the renaming keeps which one is in progress. -/
theorem inProgress_rename {k : State → Result} (hi : busOp? i = some op)
    (hk : k (s.rename f g) = renameResult f g (k s)) :
    inProgress i k (s.rename f g) = renameResult f g (inProgress i k s) := by
  have hop : (s.rename f g).eng.op = some i ↔ s.eng.op = some i := by simp [Instr.rename_eq_bus g hi]
  by_cases ho : s.eng.op = some i
  · rw [inProgress_self ho, inProgress_self (hop.2 ho), hk]
  · rw [inProgress_other ho, inProgress_other (mt hop.1 ho)]; rfl

theorem runWriteOnly_rename (hi : busOp? i = some op) (hw : s.eng.writes ≠ []) :
    runWriteOnly op i (s.rename f g) = renameResult f g (runWriteOnly op i s) := by
  simp only [runWriteOnly, State.rename_eng, Engine.rename_phase]
  cases s.eng.phase with
  | idle => exact acceptBus_rename hi
  | enc => exact inProgress_rename hi encPhase_rename
  | wr => exact inProgress_rename hi (wrPhase_rename hw)
  | settle => exact inProgress_rename hi settleThenReturn_rename
  | rd | chk | dec => exact inProgress_rename hi rfl

theorem runReading_rename (hi : busOp? i = some op) (hw : s.eng.writes ≠ []) (hr : s.eng.reads ≠ []) :
    runReading op i (decodeRx op) (s.rename f g) = renameResult f g (runReading op i (decodeRx op) s) := by
  simp only [runReading, State.rename_eng, Engine.rename_phase]
  cases s.eng.phase with
  | idle => exact acceptBus_rename hi
  | enc => exact inProgress_rename hi encPhase_rename
  | wr => exact inProgress_rename hi (wrPhase_rename hw)
  | settle => exact inProgress_rename hi settleThenRead_rename
  | rd => exact inProgress_rename hi (rdPhase_rename hr)
  | chk => exact inProgress_rename hi chkPhase_rename
  | dec => exact inProgress_rename hi decPhase_rename

theorem exec_bus_rename (hi : busOp? i = some op) (hw : s.eng.writes ≠ []) (hr : s.eng.reads ≠ []) :
    exec (i.rename g) (s.rename f g) = renameResult f g (exec i s) := by
  rw [Instr.rename_of_bus g hi, exec_bus hi]
  split
  · exact runWriteOnly_rename hi hw
  · exact runReading_rename hi hw hr

end

/-! ### The bus-free requests, which end or refuse in IDLE -/

theorem execFpenc_rename (q : Humidity) : execFpenc q (s.rename f g) = renameResult f g (execFpenc q s) := by
  refine whenIdle_rename ?_
  cases hq : fpenc q with
  | error k => cases fpenc_error hq; exact raise_rename .fixedPointRange
  | ok w => exact complete_rename (.word w)

theorem execAttach_rename (hd : Handle) :
    execAttach (g hd) (s.rename f g) = renameResult f g (execAttach hd s) := by
  refine whenIdle_rename ?_
  simp only [State.rename_eng, Engine.rename_att]
  cases s.eng.att with
  | attached _ => exact refuse_rename _
  | detached => exact complete_rename (s := s.withEng { s.eng with att := .attached hd }) .unit

theorem execRelease_rename : execRelease (s.rename f g) = renameResult f g (execRelease s) := by
  refine whenIdle_rename ?_
  simp only [State.rename_eng, Engine.rename_att]
  cases s.eng.att with
  | detached => exact refuse_rename _
  | attached hd => exact complete_rename (s := s.withEng { s.eng with att := .detached }) (.handle hd)

end

/-- Settles O59: a bus request commutes with the renaming phase by phase, and a bus-free request ends or refuses, which
does too. -/
theorem payloadsAndHandlesAreOpaque : Obligations.PayloadsAndHandlesAreOpaque := fun f g i s hw hr => by
  cases i with
  | crc8 data => exact whenIdle_rename (complete_rename (.byte (crc8 data)))
  | fpenc q => exact execFpenc_rename q
  | reserved => exact whenIdle_rename (refuse_rename _)
  | attach hd => exact execAttach_rename hd
  | release => exact execRelease_rename
  | _ => exact exec_bus_rename rfl hw hr

end Sys2Proof.Machine
end

section
/-! PROOFS. Errors: which request can raise which (R103), and their result codes (R102). -/

namespace Sys2Proof.Machine

section
variable {i : Instr} {op : BusOp} {s t : State} {k : ErrKind}

/-! ### The table of R103, row by row -/

theorem mayRaise_transport (hi : busOp? i = some op) (e : TErr) : mayRaise i (.transport e) := by
  simp [mayRaise, hi]

theorem mayRaise_checksumMismatch (hi : busOp? i = some op) (hn : rxLen op ≠ 0) : mayRaise i .checksumMismatch := by
  simp [mayRaise, hi, hn]

theorem mayRaise_sethum {h : Humidity} (hq : fpenc h = .error .fixedPointRange) :
    mayRaise (.sethum h) .fixedPointRange := ⟨h, rfl, hq⟩

theorem mayRaise_fpenc {h : Humidity} (hq : fpenc h = .error .fixedPointRange) :
    mayRaise (.fpenc h) .fixedPointRange := ⟨h, rfl, hq⟩

/-! ### Which response a move gives -/

theorem BusMove.mayRaise_of_resps (m : BusMove op i s t) (hi : busOp? i = some op)
    (h : t.eng.resps = s.eng.resps ++ [.err k]) : mayRaise i k := by
  cases m with
  | encRaised _ _ _ he ht =>
    subst ht
    obtain ⟨rfl, q, rfl, hq⟩ := encodeTx_error he
    cases List.append_cancel_left h
    exact mayRaise_sethum hq
  | writeFailed _ _ e _ _ _ _ _ ht | readFailed _ e _ _ _ _ _ ht =>
    subst ht
    cases List.append_cancel_left h
    exact mayRaise_transport hi e
  | checkFailed _ _ _ hn _ _ ht =>
    subst ht
    cases List.append_cancel_left h
    exact mayRaise_checksumMismatch hi hn
  | _ => subst t; simp at h

theorem FreeMove.mayRaise_of_resps (m : FreeMove i s t) (h : t.eng.resps = s.eng.resps ++ [.err k]) :
    mayRaise i k := by
  cases m with
  | fpErr q _ hi hq ht =>
    subst hi ht
    cases fpenc_error hq
    cases List.append_cancel_left h
    exact mayRaise_fpenc hq
  | _ => subst t; simp at h

end

/-- Settles O49: of the moves, the five that answer an error do so in the cases of R103's table. -/
theorem errorsOfEachRequest : Obligations.ErrorsOfEachRequest := fun _ _ _ _ h hr => by
  obtain ⟨_, hi, m⟩ | ⟨_, _, m⟩ := exec_next h
  · exact m.mayRaise_of_resps hi hr
  · exact m.mayRaise_of_resps hr

/-- Settles O44: the codes as the model gives them. -/
theorem resultCodes : Obligations.ResultCodes := ⟨fun _ => rfl, fun _ => rfl, rfl, rfl⟩

end Sys2Proof.Machine
end

section
/-! PROOFS. The table of the bus operations: delay, write length and read length (R34, R46, R127). -/

namespace Sys2Proof.Machine

/-- Settles O43: each row is the value of the three tables at that operation. -/
theorem operationTable : Obligations.OperationTable := by
  refine ⟨?_, ?_, ?_, ?_, ?_, ?_, ?_, ?_, ?_, ?_, ?_⟩ <;> exact ⟨rfl, rfl, rfl⟩

end Sys2Proof.Machine
end

section
/-! PROOFS. The shared bus (R41, R120): an overlapping operation is refused, and at most one operation has the bus. -/

namespace Sys2Proof.Machine

/-! ### An overlapping operation is refused -/

theorem State.busTaken_eq_true_iff {s : State} : s.busTaken = true ↔ ∃ e ∈ s.others, e.onBus = true :=
  List.any_eq_true

theorem State.busTaken_eq_false_iff {s : State} : s.busTaken = false ↔ ∀ e ∈ s.others, ¬e.onBus = true :=
  List.any_eq_false

/-- Settles O10: in IDLE and in ENC the bus in another engine's hands leaves one move, the refusal. -/
theorem overlappingOperationsAreRefused : Obligations.OverlappingOperationsAreRefused := fun _ _ _ hd hi ha hother =>
  have hb := State.busTaken_eq_true_iff.2 hother
  ⟨fun hp => (BusMove.overlap hd hp ha hb rfl).exec_eq hi,
    fun f hp ho he => (BusMove.encOverlap f hp ho he hb rfl).exec_eq hi⟩

/-! ### At most one operation has the bus -/

/-- Which engine moves does not matter. -/
theorem State.oneOnBus_iff_of_perm {s t : State} (h : s.engines.Perm t.engines) : s.OneOnBus ↔ t.OneOnBus := by
  rw [State.OneOnBus, State.OneOnBus, (h.filter Engine.onBus).length_eq]

theorem State.oneOnBus_of_busTaken_eq_false {s : State} (hb : s.busTaken = false) : s.OneOnBus := by
  have hnone : s.others.filter Engine.onBus = [] := List.filter_eq_nil_iff.2 (State.busTaken_eq_false_iff.1 hb)
  rw [State.OneOnBus, State.engines, List.filter_cons, hnone]
  split <;> simp

/-- The moving engine may have the bus where it had it before or no other engine has it. -/
theorem State.OneOnBus.replace_eng {s t : State} (h : s.OneOnBus) (hothers : t.others = s.others)
    (heng : t.eng.onBus = true → s.eng.onBus = true ∨ s.busTaken = false) : t.OneOnBus := by
  by_cases hb : s.busTaken = false
  · exact State.oneOnBus_of_busTaken_eq_false (by rwa [State.busTaken, hothers])
  · have hmono : t.eng.onBus = true → s.eng.onBus = true := fun ht => (heng ht).resolve_right hb
    unfold State.OneOnBus State.engines at h ⊢
    rw [hothers]
    cases ht : t.eng.onBus with
    | true => simpa [List.filter_cons, ht, hmono ht] using h
    | false =>
      rw [List.filter_cons_of_neg (by simp [ht])]
      exact (((List.sublist_cons_self s.eng s.others).filter _).length_le).trans h

/-- The only way onto the bus is the end of ENC, where no other engine has it. -/
theorem BusMove.onBus_before {op : BusOp} {i : Instr} {s t : State} (m : BusMove op i s t) :
    t.eng.onBus = true → s.eng.onBus = true ∨ s.busTaken = false := by
  cases m with
  | notAttached hp _ ht | overlap _ hp _ _ ht => subst ht; simp [Engine.onBus, hp]
  | accepted _ _ _ hb _ | encoded _ _ _ _ hb _ => exact fun _ => .inr hb
  | encRaised _ _ _ _ ht | encOverlap _ _ _ _ _ ht => subst ht; simp [Engine.onBus]
  | writeFailed _ _ _ hp | wrote _ _ hp | settledDone hp | settled hp | readFailed _ _ hp | readDone _ _ hp
  | checkFailed _ hp | checked _ hp | decoded _ _ hp => exact fun _ => .inl (by simp [Engine.onBus, hp])

theorem exec_onBus_before {i : Instr} {s t : State} (h : exec i s = .next t) :
    t.eng.onBus = true → s.eng.onBus = true ∨ s.busTaken = false := by
  obtain ⟨_, _, m⟩ | ⟨_, hp, m⟩ := exec_next h
  · exact m.onBus_before
  · simp [Engine.onBus_eq_false (m.phase_eq hp)]

theorem step_onBus_before {s t : State} (h : step s = .next t) :
    t.eng.onBus = true → s.takeTurn.eng.onBus = true ∨ s.takeTurn.busTaken = false := by
  obtain ⟨_, _, rfl⟩ | ⟨_, _, _, _, _, _, h⟩ | ⟨_, _, _, h⟩ := step_next h
  · exact .inl
  · exact exec_onBus_before (s := s.takeTurn.popRequest) h
  · exact exec_onBus_before h

/-- Settles O55: the turn permutes the engines, and the one that moves comes onto the bus only where no other has it. -/
theorem stepKeepsOneOperationOnTheBus : Obligations.StepKeepsOneOperationOnTheBus := fun s _ hs h =>
  have hturn : s.takeTurn.OneOnBus := (State.oneOnBus_iff_of_perm s.takeTurn_engines_perm).2 hs
  hturn.replace_eng (step_others_turns h).1 (step_onBus_before h)

end Sys2Proof.Machine
end

section
/-! PROOFS. Answered requests end (R124): the own steps of an engine, the phases of R62 from the last to the first, each
with the steps it is away from the response, and the machine's own run as a case of own steps. -/

namespace Sys2Proof.Machine

/-! ### One own step of an engine -/

/-- Turn 0 leaves the moving engine moving (log entry 5). -/
theorem State.takeTurn_of_own_turn (s : State) : { s with turns := 0 :: s.turns }.takeTurn = s := rfl

section
variable {env : Nat → State} {e : Engine} {i : Instr}

theorem ownSteps_one (env : Nat → State) (e : Engine) :
    ownSteps env e 1 = step { env 0 with eng := e, turns := 0 :: (env 0).turns } := rfl

theorem ownSteps_one_idle {r : Request} {reqs : List Request} (hp : e.phase = .idle) (hq : e.reqs = r :: reqs)
    (hdec : decode r = .ok i) : ownSteps env e 1 = exec i { env 0 with eng := { e with reqs := reqs } } := by
  rw [ownSteps_one, step_idle (s := { env 0 with eng := e, turns := 0 :: (env 0).turns }) hp hq hdec,
    State.takeTurn_of_own_turn { env 0 with eng := e }, State.popRequest_of_cons hq]

theorem ownSteps_one_busy (hp : e.phase ≠ .idle) (ho : e.op = some i) :
    ownSteps env e 1 = exec i { env 0 with eng := e } :=
  step_busy (s := { env 0 with eng := e, turns := 0 :: (env 0).turns }) hp ho

/-- A request in progress makes its next move as the engine's own step. -/
theorem ownSteps_one_move {op : BusOp} {t : State} (hi : busOp? i = some op) (hp : e.phase ≠ .idle)
    (ho : e.op = some i) (m : BusMove op i { env 0 with eng := e } t) : ownSteps env e 1 = .next t :=
  (ownSteps_one_busy hp ho).trans (m.exec_eq hi)

/-- After its first own step an engine goes on in the rest of the environment. -/
theorem ownSteps_after_one {t : State} (h : ownSteps env e 1 = .next t) (k : Nat) :
    ownSteps env e (k + 2) = ownSteps (fun j => env (j + 1)) t.eng (k + 1) := by
  induction k with
  | zero => rw [ownSteps_succ, h]; rfl
  | succ k ih => rw [ownSteps_succ, ih, ← ownSteps_succ]

end

/-! ### Ending within a number of own steps -/

/-- An answered read delivers some frame or error, whatever the length of the answer (R33). -/
theorem exists_readReply {s : State} {a : ReadOutcome} {rs : List (Reply ReadOutcome)} (hd : Handle) (n : Nat)
    (hrs : s.eng.reads = .answer a :: rs) : ∃ o, s.readReply hd n = .answer o := by
  cases a <;> simp [State.readReply, hrs, fitReply]

/-- Within `n` own steps the engine is in IDLE with one response more, the requests `reqs` at its port and the mark as
it was. -/
def EndsWithin (n : Nat) (env : Nat → State) (e : Engine) (reqs : List Request) : Prop :=
  ∃ k t resp, k < n ∧ ownSteps env e (k + 1) = .next t ∧
    t.eng.phase = .idle ∧ t.eng.reqs = reqs ∧ t.eng.resps = e.resps ++ [resp] ∧ t.eng.refused = e.refused

namespace EndsWithin

section
variable {n : Nat} {env : Nat → State} {e : Engine} {reqs : List Request} {t : State}

theorem endsInOneResponse (h : EndsWithin 7 env e reqs) : EndsInOneResponse e reqs (ownSteps env e) := by
  obtain ⟨k, t, resp, hk, hend⟩ := h
  exact ⟨k + 1, t, resp, by omega, by omega, hend⟩

theorem of_response {resp : Response} (h : ownSteps env e 1 = .next t) (hp : t.eng.phase = .idle)
    (hq : t.eng.reqs = reqs) (hr : t.eng.resps = e.resps ++ [resp]) (hm : t.eng.refused = e.refused) :
    EndsWithin (n + 1) env e reqs :=
  ⟨0, t, resp, by omega, h, hp, hq, hr, hm⟩

/-- A step that gives no response and sets no mark brings the end one step nearer. -/
theorem of_step (h : ownSteps env e 1 = .next t) (hr : t.eng.resps = e.resps) (hm : t.eng.refused = e.refused)
    (hend : EndsWithin n (fun j => env (j + 1)) t.eng reqs) : EndsWithin (n + 1) env e reqs := by
  obtain ⟨k, u, resp, hk, hu, hp, hq, hresp, hmark⟩ := hend
  exact ⟨k + 1, u, resp, by omega, (ownSteps_after_one h k).trans hu, hp, hq, by rw [hresp, hr], hmark.trans hm⟩

end

/-! ### The phases of R62, from the last to the first -/

section
variable {env : Nat → State} {e : Engine} {i : Instr} {op : BusOp} {hd : Handle} {f : Frame}
  {w : WriteOutcome} {a : ReadOutcome} {ws : List (Reply WriteOutcome)} {ds : List (Reply Unit)}
  {rs : List (Reply ReadOutcome)}

theorem of_dec (hi : busOp? i = some op) (hn : rxLen op ≠ 0) (hp : e.phase = .dec) (ho : e.op = some i)
    (hx : e.rx = some f) (hl : f.length = rxLen op) : EndsWithin 1 env e e.reqs := by
  obtain ⟨v, hv⟩ := exists_decodeRx hl hn
  exact of_response (ownSteps_one_move hi (by simp [hp]) ho (.decoded f v hp ho hn hx hv rfl)) rfl rfl rfl rfl

theorem of_chk (hi : busOp? i = some op) (hn : rxLen op ≠ 0) (hp : e.phase = .chk) (ho : e.op = some i)
    (hx : e.rx = some f) (hl : f.length = rxLen op) : EndsWithin 2 env e e.reqs := by
  have hbusy : e.phase ≠ .idle := by simp [hp]
  cases hv : frameValid f with
  | false => exact of_response (ownSteps_one_move hi hbusy ho (.checkFailed f hp ho hn hx hv rfl)) rfl rfl rfl rfl
  | true =>
    exact of_step (ownSteps_one_move hi hbusy ho (.checked f hp ho hn hx hv rfl)) rfl rfl (of_dec hi hn rfl ho hx hl)

theorem of_rd (hi : busOp? i = some op) (ha : e.att = .attached hd) (hrs : e.reads = .answer a :: rs)
    (hn : rxLen op ≠ 0) (hp : e.phase = .rd) (ho : e.op = some i) : EndsWithin 3 env e e.reqs := by
  have hbusy : e.phase ≠ .idle := by simp [hp]
  obtain ⟨o, hr⟩ := exists_readReply (s := { env 0 with eng := e }) hd (rxLen op) hrs
  cases o with
  | rErr x => exact of_response (ownSteps_one_move hi hbusy ho (.readFailed hd x hp ho hn ha hr rfl)) rfl rfl rfl rfl
  | rOk bs =>
    exact of_step (ownSteps_one_move hi hbusy ho (.readDone hd bs hp ho hn ha hr rfl)) rfl rfl
      (of_chk hi hn rfl ho rfl (readReply_rOk hr))

theorem of_settle (hi : busOp? i = some op) (ha : e.att = .attached hd) (hds : e.delays = .answer () :: ds)
    (hrs : e.reads = .answer a :: rs) (hp : e.phase = .settle) (ho : e.op = some i) : EndsWithin 4 env e e.reqs := by
  have hbusy : e.phase ≠ .idle := by simp [hp]
  have hr : State.delayReply { env 0 with eng := e } = .answer () := delayReply_of_cons hds
  by_cases hn : rxLen op = 0
  · exact of_response (ownSteps_one_move hi hbusy ho (.settledDone hp ho hn hr rfl)) rfl rfl rfl rfl
  · exact of_step (ownSteps_one_move hi hbusy ho (.settled hp ho hn hr rfl)) rfl rfl (of_rd hi ha hrs hn rfl ho)

theorem of_wr (hi : busOp? i = some op) (ha : e.att = .attached hd) (hw : e.writes = .answer w :: ws)
    (hds : e.delays = .answer () :: ds) (hrs : e.reads = .answer a :: rs) (hp : e.phase = .wr) (ho : e.op = some i)
    (hx : e.tx = some f) : EndsWithin 5 env e e.reqs := by
  have hbusy : e.phase ≠ .idle := by simp [hp]
  have hr : State.writeReply { env 0 with eng := e } hd = .answer w := writeReply_of_cons hd hw
  cases w with
  | wErr x =>
    exact of_response (ownSteps_one_move hi hbusy ho (.writeFailed hd f x hp ho ha hx hr rfl)) rfl rfl rfl rfl
  | wOk =>
    exact of_step (ownSteps_one_move hi hbusy ho (.wrote hd f hp ho ha hx hr rfl)) rfl rfl
      (of_settle hi ha hds hrs rfl ho)

theorem of_enc (hi : busOp? i = some op) (ha : e.att = .attached hd) (hw : e.writes = .answer w :: ws)
    (hds : e.delays = .answer () :: ds) (hrs : e.reads = .answer a :: rs) (hb : (env 0).busTaken = false)
    (hp : e.phase = .enc) (ho : e.op = some i) : EndsWithin 6 env e e.reqs := by
  have hbusy : e.phase ≠ .idle := by simp [hp]
  cases he : encodeTx op i with
  | error k => exact of_response (ownSteps_one_move hi hbusy ho (.encRaised k hp ho he rfl)) rfl rfl rfl rfl
  | ok f =>
    exact of_step (ownSteps_one_move hi hbusy ho (.encoded f hp ho he hb rfl)) rfl rfl
      (of_wr hi ha hw hds hrs rfl ho rfl)

theorem of_bus {r : Request} {reqs : List Request} (hi : busOp? i = some op) (ha : e.att = .attached hd)
    (hw : e.writes = .answer w :: ws) (hds : e.delays = .answer () :: ds) (hrs : e.reads = .answer a :: rs)
    (hp : e.phase = .idle) (hq : e.reqs = r :: reqs) (hdec : decode r = .ok i)
    (hb : (env 0).busTaken = false ∧ (env 1).busTaken = false) : EndsWithin 7 env e reqs := by
  have haccept := BusMove.accepted (op := op) (r := i) (s := { env 0 with eng := { e with reqs := reqs } })
    _ hp ha hb.1 rfl
  exact of_step ((ownSteps_one_idle hp hq hdec).trans (haccept.exec_eq hi)) rfl rfl
    (of_enc hi ha hw hds hrs hb.2 rfl rfl)

end

end EndsWithin

/-! ### The bus-free requests end in one step -/

/-- A bus-free request that the spec does not refuse is answered in IDLE, where only the attachment may change. -/
theorem exec_free_answers {i : Instr} {s : State} (hp : s.eng.phase = .idle) (hi : busOp? i = none)
    (hres : i ≠ .reserved) (hatt : ∀ hd, i = .attach hd → s.eng.att = .detached)
    (hrel : i = .release → s.eng.att ≠ .detached) :
    ∃ att resp, exec i s = .next (s.withEng ({ s.eng with att := att }.after [] resp)) := by
  cases i with
  | crc8 data => exact ⟨s.eng.att, _, exec_crc8_idle data hp⟩
  | fpenc h =>
    cases hq : fpenc h with
    | ok q => exact ⟨s.eng.att, _, exec_fpenc_ok hp hq⟩
    | error k => exact ⟨s.eng.att, _, exec_fpenc_error hp hq⟩
  | reserved => exact absurd rfl hres
  | attach hd => exact ⟨_, _, exec_attach_detached hd hp (hatt hd rfl)⟩
  | release =>
    cases ha : s.eng.att with
    | detached => exact absurd ha (hrel rfl)
    | attached hd => exact ⟨_, _, exec_release_attached hp ha⟩
  | _ => cases hi

theorem EndsWithin.of_free {n : Nat} {env : Nat → State} {e : Engine} {r : Request} {reqs : List Request} {i : Instr}
    (hp : e.phase = .idle) (hq : e.reqs = r :: reqs) (hdec : decode r = .ok i) (hi : busOp? i = none)
    (hres : i ≠ .reserved) (hatt : ∀ hd, i = .attach hd → e.att = .detached)
    (hrel : i = .release → e.att ≠ .detached) : EndsWithin (n + 1) env e reqs := by
  obtain ⟨att, resp, h⟩ := exec_free_answers (s := { env 0 with eng := { e with reqs := reqs } }) hp hi hres hatt hrel
  exact of_response ((ownSteps_one_idle hp hq hdec).trans h) rfl rfl rfl rfl

/-! ### The machine's own run (log entry 5) -/

/-- The state the machine's own run is in after `k` steps, while it goes on: the environment in which each step of the
run is an own step of the one engine that moves. -/
def runEnv (s : State) (k : Nat) : State :=
  match runFrom s k with
  | .next t => t
  | .fault _ | .refused _ => s

theorem runEnv_of_next {s t : State} {k : Nat} (h : runFrom s k = .next t) : runEnv s k = t := by
  rw [runEnv, h]

/-- With no turns listed the run takes none, and the other engines stay as they are. -/
theorem runFrom_turns_others {s t : State} {k : Nat} (hs : s.turns = []) (h : runFrom s k = .next t) :
    t.turns = [] ∧ t.others = s.others := by
  induction k generalizing t with
  | zero => cases h; exact ⟨hs, rfl⟩
  | succ k ih =>
    rw [runFrom_succ] at h
    split at h
    next u hu =>
      obtain ⟨hturns, hothers⟩ := ih hu
      have hstep := step_others_turns h
      rw [State.takeTurn_of_nil hturns] at hstep
      exact ⟨hstep.2.trans hturns, hstep.1.trans hothers⟩
    · cases h
    · cases h

theorem runEnv_busTaken {s : State} (hs : s.turns = []) (k : Nat) : (runEnv s k).busTaken = s.busTaken := by
  unfold runEnv
  split
  · rw [State.busTaken, (runFrom_turns_others hs ‹_›).2]; rfl
  · rfl
  · rfl

/-- A step with no turn listed is an own step of the moving engine. -/
theorem step_own_turn {s : State} (hs : s.turns = []) : step { s with turns := 0 :: s.turns } = step s := by
  rw [step, step, State.takeTurn_of_own_turn, State.takeTurn_of_nil hs]

theorem runFrom_eq_ownSteps {s : State} (hs : s.turns = []) (k : Nat) :
    runFrom s k = ownSteps (runEnv s) s.eng k := by
  induction k with
  | zero => rfl
  | succ k ih =>
    rw [runFrom_succ, ownSteps_succ, ← ih]
    cases h : runFrom s k with
    | next t =>
      dsimp only
      rw [runEnv_of_next h]
      exact (step_own_turn (runFrom_turns_others hs h).1).symm
    | fault x => rfl
    | refused x => rfl

/-- Settles O58: a bus request goes through the phases, a bus-free one ends at once, and the machine's own run is made
of own steps in the environment of its own states. -/
theorem answeredRequestsEndInOneResponse : Obligations.AnsweredRequestsEndInOneResponse := by
  intro e r reqs i w a ws ds rs hp hq hdec hw hds hrs hres hatt hrel hbus
  have hown (env : Nat → State)
      (hb : ∀ op, busOp? i = some op → (env 0).busTaken = false ∧ (env 1).busTaken = false) :
      EndsInOneResponse e reqs (ownSteps env e) := by
    apply EndsWithin.endsInOneResponse
    cases hi : busOp? i with
    | none => exact .of_free hp hq hdec hi hres hatt hrel
    | some op =>
      cases ha : e.att with
      | detached => exact absurd ha (hbus op hi)
      | attached hd => exact .of_bus hi ha hw hds hrs hp hq hdec (hb op hi)
  refine ⟨hown, fun s hs hturns hb => ?_⟩
  subst hs
  rw [funext (runFrom_eq_ownSteps hturns)]
  refine hown _ fun op hi => ?_
  rw [runEnv_busTaken hturns, runEnv_busTaken hturns]
  exact ⟨hb op hi, hb op hi⟩

end Sys2Proof.Machine
end
